-- ==== Sys2Proof/Word.lean ====
section
/-! DEFINITION. The words the TQ620 model computes with: bytes, source numbers, and values kept once per axle or
once per sector. -/

namespace Sys2Proof

/-- One byte of a frame or of the Calibration Store. -/
abbrev Byte := BitVec 8

/-- A source number on the chassis bus, 0 to 7 (section 8.1). -/
abbrev Source := Fin 8

/-- The two axles; every per-axle block of the manual is kept once for each. -/
inductive Axle where
  | front | rear
deriving DecidableEq, Repr

/-- The other axle. -/
def Axle.other : Axle → Axle
  | .front => .rear
  | .rear => .front

/-- A value kept once per axle. -/
structure Axles (α : Type) where
  front : α
  rear : α
deriving DecidableEq, Repr

/-- The value kept for an axle. -/
def Axles.get {α : Type} (p : Axles α) : Axle → α
  | .front => p.front
  | .rear => p.rear

/-- The pair with the value of one axle replaced. -/
def Axles.set {α : Type} (p : Axles α) (x : Axle) (a : α) : Axles α :=
  match x with
  | .front => { p with front := a }
  | .rear => { p with rear := a }

/-- A value kept once per sector of the Calibration Store. -/
structure Sectors (α : Type) where
  s0 : α
  s1 : α
  s2 : α
  s3 : α
deriving DecidableEq, Repr

/-- The value kept for a sector; a sector number above 3 reads as sector 3 (no check lets one through, R155). -/
def Sectors.get {α : Type} (p : Sectors α) : Nat → α
  | 0 => p.s0
  | 1 => p.s1
  | 2 => p.s2
  | _ => p.s3

/-- The family with the value of one sector replaced. -/
def Sectors.set {α : Type} (p : Sectors α) (n : Nat) (a : α) : Sectors α :=
  match n with
  | 0 => { p with s0 := a }
  | 1 => { p with s1 := a }
  | 2 => { p with s2 := a }
  | _ => { p with s3 := a }

/-- The same value for every sector. -/
def Sectors.all {α : Type} (a : α) : Sectors α := ⟨a, a, a, a⟩

/-- The sectors' values, from sector 0 up. -/
def Sectors.toList {α : Type} (p : Sectors α) : List α := [p.s0, p.s1, p.s2, p.s3]

end Sys2Proof
end

