-- ==== Sys2Proof/Syntax.lean ====
section
/-! DEFINITION. The commands of the TQ620: one constructor for each row of spec/opcode_table.json. A frame's operands
are its fields as they stand on the wire (section 8.7); what an event's operand stands for is in its docstring. -/

namespace Sys2Proof

/-- The three kinds of reset (R2); also the three reset causes (R3). -/
inductive ResetKind where
  | power | pin | restart
deriving DecidableEq, Repr

/-- A frame on the chassis bus as the port's receiver sees it (R136): `dlc` is the data length code. -/
structure CanFrame where
  ident : Nat
  extended : Bool
  remote : Bool
  dlc : Nat
  data : List Byte
deriving DecidableEq, Repr

/-- Bytes 1 to 6 of an INTERVENTION frame (section 8.7.1): tag, level, the axle selector and NO TRANSFER byte, the
value and the hold time. Byte 0, the action code, is the row. -/
structure InterventionFields where
  tag : Byte
  level : Byte
  axleByte : Byte
  value : BitVec 16
  hold : Byte
deriving DecidableEq, Repr

/-- Byte 4 of a DEMAND frame, the alive counter (section 8.7.1), and how the frame reaches the record. `withExpiry`: it
came together with the 30 ms expiry and is taken after it, a race that R22 settles and that a model without a clock is
told of (log entry 28). -/
structure DemandCounter where
  byte : Byte
  withExpiry : Bool
deriving DecidableEq, Repr

/-- The commands of the block. -/
inductive Instr where
  /-- POWER_RESET: the supply is below the monitor threshold (R2). -/
  | powerReset
  /-- PIN_RESET: RESET_N is driven low (R2). -/
  | pinReset
  /-- RESET_RELEASE: the condition of the named kind ends (R2). -/
  | resetRelease (kind : ResetKind)
  /-- IMAGE_CHECK_OF_INIT: the image check of INIT completes (R6). -/
  | imageCheckOfInit
  /-- PASS_TIMER_EXPIRY: the 1 ms pass timer expires (R13, R14). -/
  | passTimerExpiry
  /-- PASS_COMPLETION: the pass in progress completes (R15). -/
  | passCompletion
  /-- DEMAND: a DEMAND frame arrives (R17 to R22). -/
  | demand (src : Source) (torque : BitVec 16) (modeCode flags : Byte) (counter : DemandCounter)
  /-- DEMAND_TIMER_30_MS expires (R18). -/
  | demandTimer30Ms
  /-- DEMAND_TIMER_130_MS expires (R18). -/
  | demandTimer130Ms
  /-- LOAD: a LOAD frame arrives (R24). -/
  | load (src : Source) (tongue : BitVec 16) (flags : Byte)
  /-- LOAD_TIMER, 500 ms, expires (R24). -/
  | loadTimer
  /-- REFERENCE: a REFERENCE frame arrives (R39). -/
  | reference (src : Source) (front rear : BitVec 16)
  /-- REFERENCE_TIMER, 20 ms, expires (R40). -/
  | referenceTimer
  /-- BATTERY_LIMIT: a BATTERY LIMIT frame arrives (R103). -/
  | batteryLimit (src : Source) (discharge charge : BitVec 16)
  /-- BATTERY_LIMIT_TIMER, 100 ms, expires (R103). -/
  | batteryLimitTimer
  /-- SLIP_OVERRIDE: a SLIP OVERRIDE frame arrives (R52). -/
  | slipOverride (src : Source) (axleCode overrideCode : Byte)
  /-- AXLE_CAP: an INTERVENTION frame with action 1 arrives (R66). -/
  | axleCap (src : Source) (fields : InterventionFields)
  /-- TOTAL_CAP: an INTERVENTION frame with action 2 arrives (R66). -/
  | totalCap (src : Source) (fields : InterventionFields)
  /-- SHARE_HOLD: an INTERVENTION frame with action 3 arrives (R66). -/
  | shareHold (src : Source) (fields : InterventionFields)
  /-- REGEN_CUT: an INTERVENTION frame with action 4 arrives (R66). -/
  | regenCut (src : Source) (fields : InterventionFields)
  /-- RELEASE: an INTERVENTION frame with action 0 arrives (R72). -/
  | release (src : Source) (fields : InterventionFields)
  /-- REFUSED_BAD_KIND: an INTERVENTION frame whose action code is 5 to 255 arrives (R61). -/
  | refusedBadKind (src : Source) (action : Byte) (fields : InterventionFields)
  /-- HOLD_EXPIRY: the hold timer of the entry with this identity runs out (R73). -/
  | holdExpiry (src : Source) (tag : Byte)
  /-- SET_MASK: an EVENT CONTROL frame with operation 1 arrives (R150). -/
  | setMask (src : Source) (events : BitVec 16)
  /-- ACKNOWLEDGE: an EVENT CONTROL frame with operation 2 arrives (R150). -/
  | acknowledge (src : Source) (events : BitVec 16)
  /-- FRAME_REJECTED: a frame arrives that the port's checks discard (R136, R138). -/
  | frameRejected (frame : CanFrame)
  /-- SERVICE_REQUEST: a SERVICE REQUEST frame arrives: service code and seven parameter bytes (R154). -/
  | serviceRequest (src : Source) (code : Byte) (params : List Byte)
  /-- UNKNOWN_SERVICE: the SU begins the request at the head of its queue, whose code is not listed (R155). -/
  | unknownService
  /-- ENTER_SERVICE: the SU begins an ENTER SERVICE request (R10). -/
  | enterService
  /-- LEAVE_SERVICE: the SU begins a LEAVE SERVICE request (R11). -/
  | leaveService
  /-- LEAVE_SERVICE_COMPLETION: its image check completes (R11). -/
  | leaveServiceCompletion
  /-- READ_LINK_COUNTERS is begun (R124). -/
  | readLinkCounters
  /-- SET_LOOPBACK is begun (R130). -/
  | setLoopback
  /-- READ_ARBITER_ENTRY is begun (R80). -/
  | readArbiterEntry
  /-- READ_IDENTITY is begun (R156). -/
  | readIdentity
  /-- RESTART is begun (R157). -/
  | restart
  /-- READ_CAL is begun (R158). -/
  | readCal
  /-- WRITE_CAL is begun (R159). -/
  | writeCal
  /-- WRITE_CAL_COMPLETION: the write in progress completes (R159). -/
  | writeCalCompletion
  /-- ERASE_SECTOR is begun (R160). -/
  | eraseSector
  /-- ERASE_SECTOR_COMPLETION: the erase ends; `allErased` says whether every byte read 0xFF at its end (R160). -/
  | eraseSectorCompletion (allErased : Bool)
  /-- BULK_ERASE is begun (R161). -/
  | bulkErase
  /-- BULK_ERASE_COMPLETION: the bulk erase ends; the operands say which sectors checked as all 0xFF (R161). -/
  | bulkEraseCompletion (erased0 erased1 erased2 erased3 : Bool)
  /-- LOCK_STORE is begun (R162). -/
  | lockStore
  /-- LOCK_STORE_COMPLETION: the lock cell is set (R162). -/
  | lockStoreCompletion
  /-- SLOT_OPENING: the next slot opens on both links (R114, R115). In a near loopback the command frame returns to
  the receiver with the bits of the axle's operand inverted: 0 for a sound path (R131). -/
  | slotOpening (frontLoopError rearLoopError : BitVec 32)
  /-- REPORT_FRAME: a frame of these bytes is complete on an axle's report line (R116). -/
  | reportFrame (axle : Axle) (bytes : List Byte)
  /-- SLOT_END: the slot ends on an axle's link (R116). -/
  | slotEnd (axle : Axle)
  /-- STATUS_TIMER_EXPIRY: the 10 ms status timer expires (R141). -/
  | statusTimerExpiry
  /-- FRAME_OFFER: the port has its chance to transmit (R145). -/
  | frameOffer
  /-- TRANSMISSION_SUCCESS: the offered frame is sent and acknowledged (R145). -/
  | transmissionSuccess
  /-- TRANSMISSION_FAILURE: the offered frame meets an error or no acknowledge (R145). -/
  | transmissionFailure
  /-- ARBITRATION_LOSS: the offered frame loses arbitration (R145). -/
  | arbitrationLoss
  /-- SILENT_END: 50 ms have passed since the port entered SILENT (R146). -/
  | silentEnd
  /-- EVENT_CONTROL_OTHER_OPERATION: an EVENT CONTROL frame with another operation code arrives (R150). -/
  | eventControlOtherOperation (src : Source) (operation : Byte) (events : BitVec 16)
deriving DecidableEq, Repr

end Sys2Proof
end

