-- ==== Sys2Proof/Decode.lean ====
section
/-! DEFINITION. Reading commands from bits. The opcode table gives no row any bits, so `decodeTableWord` answers none
for every word. The chassis frames do spell commands: `decodeFrame` reads a frame of an accepted kind by the layouts
of section 8.7.1 (R148). -/

namespace Sys2Proof

/-- The command that a word spells by the opcode table's bits. No row of the table gives bits. -/
def decodeTableWord (_nbits _w : Nat) : Option Instr := none

/-- Two bytes as one field, the first sent being the more significant (R148). -/
def be16 (hi lo : Byte) : BitVec 16 := hi ++ lo

/-- The command an INTERVENTION frame spells: its row is its action code (section 8.7.1). -/
def interventionCommand (src : Source) (action : Byte) (f : InterventionFields) : Instr :=
  match action.toNat with
  | 0 => .release src f
  | 1 => .axleCap src f
  | 2 => .totalCap src f
  | 3 => .shareHold src f
  | 4 => .regenCut src f
  | _ => .refusedBadKind src action f

/-- The command an EVENT CONTROL frame spells: its row is its operation code (section 8.7.1). -/
def eventControlCommand (src : Source) (op : Byte) (events : BitVec 16) : Instr :=
  match op.toNat with
  | 1 => .setMask src events
  | 2 => .acknowledge src events
  | _ => .eventControlOtherOperation src op events

/-- The command that the data bytes of a frame of a kind spell (R138, R148): none for a kind above 7 or a length
other than the kind's. Bytes do not say when a frame arrives: a DEMAND so read races no expiry (log entry 28). -/
def decodeFrame (kind : Nat) (src : Source) (data : List Byte) : Option Instr :=
  match kind, data with
  | 0, [b0, b1, b2, b3, b4] => some (.demand src (be16 b0 b1) b2 b3 ⟨b4, false⟩)
  | 1, [b0, b1, b2, b3] => some (.reference src (be16 b0 b1) (be16 b2 b3))
  | 2, [b0, b1, b2, b3] => some (.batteryLimit src (be16 b0 b1) (be16 b2 b3))
  | 3, [b0, b1, b2] => some (.load src (be16 b0 b1) b2)
  | 4, [b0, b1, b2, b3, b4, b5, b6] => some (interventionCommand src b0 ⟨b1, b2, b3, be16 b4 b5, b6⟩)
  | 5, [b0, b1] => some (.slipOverride src b0 b1)
  | 6, [b0, b1, b2] => some (eventControlCommand src b0 (be16 b1 b2))
  | 7, [b0, b1, b2, b3, b4, b5, b6, b7] => some (.serviceRequest src b0 [b1, b2, b3, b4, b5, b6, b7])
  | _, _ => none

end Sys2Proof
end

