-- ==== Sys2Proof/Machine/State.lean ====
section
/-! DEFINITION. The state of the TQ620, block by block (section 2 of the scope file), its values after a reset, and the
reasons a step can stop. Plain data throughout. -/

namespace Sys2Proof.Machine

/-! ## Operating State Control -/

/-- The five device states (R1). -/
inductive DeviceState where
  | init | standby | active | service | safeHold
deriving DecidableEq, Repr

/-- The OSC: the device state (R1), the reset cause (R3), the conditions that hold the TQ620 in reset at this moment
(R2) and whether the image check of INIT is under way (R5). -/
structure OperatingState where
  device : DeviceState
  cause : ResetKind
  /-- The supply is below the monitor threshold. -/
  supplyLow : Bool
  /-- RESET_N is low. -/
  pinLow : Bool
  /-- The fixed period of a RESTART reset is running. -/
  restartPeriod : Bool
  /-- The image check of INIT has begun and not completed. -/
  checking : Bool
deriving DecidableEq, Repr

/-! ## Demand Unit (chapter 2) -/

/-- Freshness of the Demand Record (R18). -/
inductive DemandFreshness where
  | absent | fresh | stale | lost
deriving DecidableEq, Repr

/-- Freshness of the Load, Reference and Battery Limit Records (R24, R40, R103). -/
inductive Freshness where
  | absent | fresh | stale
deriving DecidableEq, Repr

/-- The four modes (R31). -/
inductive Mode where
  | normal | tow | terrain | rear
deriving DecidableEq, Repr

/-- The fields of the Demand Record (R17) with its freshness state (R18). -/
structure DemandRecord where
  torque : Int
  mode : Mode
  driveEnable : Bool
  regenPermitted : Bool
  freshness : DemandFreshness
deriving DecidableEq, Repr

/-- The Load Record (R24). -/
structure LoadRecord where
  tongue : Nat
  trailer : Bool
  freshness : Freshness
deriving DecidableEq, Repr

/-- The blend state (R34). -/
structure Blend where
  active : Bool
  start : Int
  count : Nat
deriving DecidableEq, Repr

/-- The DU (section 2, R23, R31, R34). -/
structure DemandUnit where
  demand : DemandRecord
  /-- The expected-counter reference, none after a reset (R19, R23). -/
  counterRef : Option Nat
  badRun : Nat
  /-- In LOST: a frame has resynchronised since the record became LOST (R21). -/
  resynced : Bool
  heldDemand : Int
  load : LoadRecord
  mode : Mode
  pendingMode : Option Mode
  blend : Blend
deriving DecidableEq, Repr

/-! ## Slip Estimator (chapter 3) -/

/-- The slip states of an axle. -/
inductive SlipState where
  | grip | slip | spin
deriving DecidableEq, Repr

/-- The Reference Record (R39, R40). -/
structure ReferenceRecord where
  speed : Axles Int
  freshness : Freshness
deriving DecidableEq, Repr

/-- The SE's state of one axle: the 16 samples newest first (R44), the filtered slip and saturation marker (R46), the
automatic slip state with its counts (R49 to R51) and the override record, none when off (R52). -/
structure SlipAxle where
  taps : List Int
  filtered : Int
  saturated : Bool
  auto : SlipState
  enterCount : Nat
  exitCount : Nat
  override : Option SlipState
deriving DecidableEq, Repr

/-- The SE. -/
structure SlipEstimator where
  reference : ReferenceRecord
  axle : Axles SlipAxle
deriving DecidableEq, Repr

/-! ## Intervention Arbiter (chapter 4) -/

/-- The four kinds of intervention (section 4.1). -/
inductive InterventionKind where
  | axleCap | totalCap | shareHold | regenCut
deriving DecidableEq, Repr

/-- The axle field of an entry (R63). -/
inductive AxleSelector where
  | front | rear | both
deriving DecidableEq, Repr

/-- An entry of either list (R63). `order` is its arrival order; the hold time is in ms. -/
structure Entry where
  source : Source
  tag : Byte
  kind : InterventionKind
  level : Nat
  axle : AxleSelector
  value : Nat
  noTransfer : Bool
  hold : Nat
  order : Nat
deriving DecidableEq, Repr

/-- The IA: the stack, top first (R64), the Pending List, first entry first (R65), and the number of entries created
so far, from which each entry takes its arrival order (R63). -/
structure Arbiter where
  stack : List Entry
  waiting : List Entry
  arrivals : Nat
deriving DecidableEq, Repr

/-! ## Capability Unit (chapter 5) -/

/-- The inverter states (R85). -/
inductive InverterState where
  | off | ready | run | derate | fault
deriving DecidableEq, Repr

/-- The CU's state of one axle: accepted and previous reported capabilities in N·m (R83), inverter state (R85). -/
structure AxleCapability where
  drive : Nat
  regen : Nat
  prevDrive : Nat
  prevRegen : Nat
  inverter : InverterState
deriving DecidableEq, Repr

/-! ## Axle Link Controllers (chapter 7) -/

/-- The link states (R121). -/
inductive LinkState where
  | off | acquire | up | impaired | lost
deriving DecidableEq, Repr

/-- The loopback states (R130). -/
inductive LoopState where
  | opened | nearTransparent | nearOpaque | far
deriving DecidableEq, Repr

/-- Where the current slot of a link stands (R116): no slot (the slot timer is stopped), a slot whose result is
awaited, a slot whose result has been taken, a slot that yields no result (R130). -/
inductive SlotPhase where
  | none | waiting | settled | noResult
deriving DecidableEq, Repr

/-- One Axle Link Controller (R135). -/
structure Link where
  state : LinkState
  goodRun : Nat
  badRun : Nat
  position : Nat
  sentWord : Byte
  /-- The maintenance bits received in the current superframe. -/
  received : Byte
  /-- The completeness mark: every slot of the superframe so far gave a good result (R128). -/
  complete : Bool
  prevWord : Option Byte
  ackVerified : Bool
  nearErrors : Nat
  farErrors : Nat
  loop : LoopState
  testCount : BitVec 16
  speed : Int
  slot : SlotPhase
  /-- The command frame built for the current slot; empty before the first slot. -/
  sentFrame : List Byte
  /-- What the command line carries in the current slot (R131); empty for the idle line (R135). -/
  line : List Byte
deriving DecidableEq, Repr

/-! ## Calibration (chapter 10) -/

/-- The states of a sector (section 10.2). -/
inductive SectorState where
  | erased | programmed | damaged
deriving DecidableEq, Repr

/-- The Calibration Store: the bytes of its four sectors as cells in canonical form (addresses 256 times the sector
plus the offset, rising; an unlisted byte reads 0xFF), the sector states and the lock cell. -/
structure Store where
  cells : List Host.Cell
  sectors : Sectors SectorState
  locked : Bool
deriving DecidableEq, Repr

/-- The calibration in force: the store content that an image check read (R7). A damaged sector reads 0x00. -/
structure Image where
  cells : List Host.Cell
  damaged : Sectors Bool
deriving DecidableEq, Repr

/-- The roles a source can carry (R137). -/
inductive Role where
  | none | ds | sc | bm | tm | st
deriving DecidableEq, Repr

/-- One Source Table entry (R164): role, and the two bounds of the level range as stored. -/
structure SourceEntry where
  role : Role
  lower : Nat
  upper : Nat
deriving DecidableEq, Repr

/-- The chassis configuration in force (R7): identifier base, own source number, Source Table for sources 0 to 7. -/
structure ChassisConfig where
  base : Nat
  own : Source
  table : List SourceEntry
deriving DecidableEq, Repr

/-- The binding of each role to at most one source (R137). -/
structure Binding where
  ds : Option Source
  sc : Option Source
  bm : Option Source
  tm : Option Source
  st : Option Source
deriving DecidableEq, Repr

/-! ## Apportioning Engine (chapters 1 and 6) -/

/-- The Battery Limit Record, limits in 100 W (R103). -/
structure BatteryRecord where
  discharge : Nat
  charge : Nat
  freshness : Freshness
deriving DecidableEq, Repr

/-- The Apportionment Record (R16). -/
structure Apportionment where
  output : Axles Int
  share : Int
  accepted : Int
  unserved : Int
  factor : Int
  discharge : Nat
deriving DecidableEq, Repr

/-- What a pass takes at its start (R14). `heldDemand` is the one of the last completed pass (R26). -/
structure Snapshot where
  device : DeviceState
  demand : DemandRecord
  heldDemand : Int
  load : LoadRecord
  mode : Mode
  pendingMode : Option Mode
  blend : Blend
  reference : ReferenceRecord
  filtered : Axles Int
  displayed : Axles SlipState
  limits : BatteryRecord
  prev : Axles Int
  shortfall : Nat
  stack : List Entry
  drive : Axles Nat
  regen : Axles Nat
  inverter : Axles InverterState
  link : Axles LinkState
  speed : Axles Int
  image : Image
deriving DecidableEq, Repr

/-- What stages 1 to 7 of a pass produce and its completion hands on (R15, R27, R34, R110). `blendCount` is the pass
count k of the pass (R34). -/
structure PassResult where
  heldDemand : Int
  blendCount : Nat
  baseShare : Int
  record : Apportionment
deriving DecidableEq, Repr

/-- A pass that has begun and not completed. -/
structure Pass where
  snapshot : Snapshot
  result : PassResult
deriving DecidableEq, Repr

/-- The AE: previous outputs, Battery Limit Record, Apportionment Record, last power factor, shortfall count, the pass
timer (running or not, R13) and the pass in progress. -/
structure Engine where
  prev : Axles Int
  limits : BatteryRecord
  record : Apportionment
  lastFactor : Int
  shortfall : Nat
  passTimer : Bool
  pass : Option Pass
deriving DecidableEq, Repr

/-! ## Event Unit (chapter 9) -/

/-- The EU: Event Set and Event Mask as the words the frames carry (section 8.7.3), and the ATTN_N output: driven low,
or released. -/
structure EventUnit where
  events : BitVec 16
  mask : BitVec 16
  attnLow : Bool
deriving DecidableEq, Repr

/-! ## Chassis Port (chapter 8) -/

/-- The port states (R146). -/
inductive PortState where
  | on | silent
deriving DecidableEq, Repr

/-- A transmit slot: the frame it holds and the newer frame waiting behind a frame in transmission (R142). -/
structure TxSlot where
  frame : Option (List Byte)
  behind : Option (List Byte)
deriving DecidableEq, Repr

/-- The answer codes (R77). -/
inductive AnswerCode where
  | accepted | pending | updated | displaced | dropped | released | expired | cleared | notFound
  | refusedFull | refusedWrongState | refusedBadKind
deriving DecidableEq, Repr

/-- The place an answer reports (R77). -/
inductive Place where
  | none | stack | pending
deriving DecidableEq, Repr

/-- An INTERVENTION ANSWER with the source it is addressed to (R77, R143). -/
structure Answer where
  dest : Source
  tag : Byte
  code : AnswerCode
  level : Nat
  place : Place
deriving DecidableEq, Repr

/-- Where the frame in transmission comes from (R145). -/
inductive TxOrigin where
  | slotA | slotB | slotC | answer | response
deriving DecidableEq, Repr

/-- The frame the port is offering. -/
structure Transmission where
  origin : TxOrigin
  ident : Nat
  data : List Byte
deriving DecidableEq, Repr

/-- The freshness timers the port runs: running or stopped (R140). -/
structure FreshnessTimers where
  demand30 : Bool
  demand130 : Bool
  reference : Bool
  battery : Bool
  load : Bool
deriving DecidableEq, Repr

/-- The CP (R147). -/
structure Port where
  state : PortState
  errorCount : Nat
  statusTimer : Bool
  slotA : TxSlot
  slotB : TxSlot
  slotC : TxSlot
  answers : List Answer
  transmission : Option Transmission
  timers : FreshnessTimers
  binding : Option Binding
deriving DecidableEq, Repr

/-! ## Service Unit (chapter 10) -/

/-- A request of the Service Queue: its source, service code and parameter bytes 1 to 7 (R154). -/
structure Request where
  source : Source
  code : Byte
  params : List Byte
deriving DecidableEq, Repr

/-- The service results (section 8.7.4). -/
inductive ServiceResult where
  | done | busy | wrongState | locked | notErased | badAddress | damaged | eraseFailed | imageInvalid
  | unknownService
deriving DecidableEq, Repr

/-- A SERVICE RESPONSE: addressee, service code of the request, result, and payload bytes 2 to 7 (section 8.7.4). -/
structure Response where
  dest : Source
  code : Byte
  result : ServiceResult
  payload : List Byte
deriving DecidableEq, Repr

/-- The operation of the request in execution, for the services that do not complete at once. -/
inductive Operation where
  | imageCheck
  | write (sector offset : Nat) (data : List Byte)
  | erase (sector : Nat)
  | bulkErase
  | lock
deriving DecidableEq, Repr

/-- The SU: the Service Queue, whose head is the request in execution while `operation` is not none, the service
response queue, and restart pending (R154, R157). -/
structure ServiceUnit where
  queue : List Request
  responses : List Response
  operation : Option Operation
  restartPending : Bool
deriving DecidableEq, Repr

/-! ## The machine -/

/-- The state of the TQ620, and the queue of the commands that are waiting. `reading` counts the hold-time readings
made so far: it picks the next free value (log entry 3) and is the model's own. -/
structure State where
  osc : OperatingState
  du : DemandUnit
  se : SlipEstimator
  ia : Arbiter
  cu : Axles AxleCapability
  ae : Engine
  links : Axles Link
  eu : EventUnit
  cp : Port
  su : ServiceUnit
  store : Store
  /-- The calibration in force, none until the image check of INIT completes (R4, R7). -/
  image : Option Image
  /-- The chassis configuration in force, none in INIT (R7). -/
  chassis : Option ChassisConfig
  reading : Nat
  pending : List Instr
deriving DecidableEq, Repr

/-- The reasons for which the machine stops with a fault. There is none: the manual describes no condition that stops
the TQ620; what it refuses it answers in a frame, and what it cannot take it ignores. -/
inductive Fault where
deriving DecidableEq, Repr

/-- The reasons for which the model has no step. -/
inductive Refusal where
  /-- The command has no meaning in the model yet. Raised by `exec` alone, by name; safe. -/
  | notModelled (mnemonic : String)
deriving DecidableEq, Repr

/-! ## Values after a reset -/

/-- The DU after any reset (R23, R24, R31, R34). -/
def DemandUnit.reset : DemandUnit where
  demand := ⟨0, .normal, false, false, .absent⟩
  counterRef := none
  badRun := 0
  resynced := false
  heldDemand := 0
  load := ⟨0, false, .absent⟩
  mode := .normal
  pendingMode := none
  blend := ⟨false, 0, 0⟩

/-- One axle of the SE after any reset (R59). -/
def SlipAxle.reset : SlipAxle :=
  ⟨[0, 0, 0, 0, 0, 0, 0, 0, 0, 0, 0, 0, 0, 0, 0, 0], 0, false, .grip, 0, 0, none⟩

/-- The SE after any reset (R59). -/
def SlipEstimator.reset : SlipEstimator := ⟨⟨⟨0, 0⟩, .absent⟩, ⟨.reset, .reset⟩⟩

/-- The IA after any reset (R81). -/
def Arbiter.reset : Arbiter := ⟨[], [], 0⟩

/-- One axle of the CU after any reset (R94); also its values on the loss of the link (R84). -/
def AxleCapability.reset : AxleCapability := ⟨0, 0, 0, 0, .off⟩

/-- The AE after any reset (R4, R113). -/
def Engine.reset : Engine where
  prev := ⟨0, 0⟩
  limits := ⟨0, 0, .absent⟩
  record := ⟨⟨0, 0⟩, 0, 0, 0, 32768, 0⟩
  lastFactor := 32768
  shortfall := 0
  passTimer := false
  pass := none

/-- An Axle Link Controller after any reset (R135). -/
def Link.reset : Link where
  state := .off
  goodRun := 0
  badRun := 0
  position := 0
  sentWord := 0
  received := 0
  complete := false
  prevWord := none
  ackVerified := false
  nearErrors := 0
  farErrors := 0
  loop := .opened
  testCount := 0
  speed := 0
  slot := .none
  sentFrame := []
  line := []

/-- The EU after any reset: RESTARTED alone latched, all sixteen events masked, ATTN_N released (R153, R152). -/
def EventUnit.reset : EventUnit := ⟨0x0001#16, 0xFFFF#16, false⟩

/-- The CP after any reset (R147). -/
def Port.reset : Port where
  state := .on
  errorCount := 0
  statusTimer := false
  slotA := ⟨none, none⟩
  slotB := ⟨none, none⟩
  slotC := ⟨none, none⟩
  answers := []
  transmission := none
  timers := ⟨false, false, false, false, false⟩
  binding := none

/-- The SU after any reset (R154). -/
def ServiceUnit.reset : ServiceUnit := ⟨[], [], none, false⟩

/-- The machine right after the POWER reset of a first power-up: out of reset, in INIT, its image check begun (R2, R5).
The store is non-volatile and the manual gives it no first content: erased and unlocked here (log entry 1). -/
def State.reset : State where
  osc := ⟨.init, .power, false, false, false, true⟩
  du := .reset
  se := .reset
  ia := .reset
  cu := ⟨.reset, .reset⟩
  ae := .reset
  links := ⟨.reset, .reset⟩
  eu := .reset
  cp := .reset
  su := .reset
  store := ⟨[], Sectors.all .erased, false⟩
  image := none
  chassis := none
  reading := 0
  pending := []

end Sys2Proof.Machine
end

