-- ==== Sys2Proof/Machine/Operands.lean ====
section
/-! DEFINITION. The fields of received frames as their owners read them (section 8.7.1, section 8.7.5), and the codes
that fields carry in the frames the TQ620 sends (section 8.7.2). -/

namespace Sys2Proof.Machine

/-- The mode a mode request code names; none for 4 to 255 (R17). -/
def modeOfCode : Nat → Option Mode
  | 0 => some .normal
  | 1 => some .tow
  | 2 => some .terrain
  | 3 => some .rear
  | _ => none

/-- Bit 0 of the DEMAND flags byte: drive enable. -/
def driveEnableOf (flags : Byte) : Bool := flags.getLsbD 0

/-- Bit 1 of the DEMAND flags byte: regen permitted. -/
def regenPermittedOf (flags : Byte) : Bool := flags.getLsbD 1

/-- Bits 3..0 of the DEMAND counter byte: the alive counter. -/
def aliveCounter (counter : Byte) : Nat := counter.toNat % 16

/-- Bit 0 of byte 2 of a LOAD frame: trailer present. -/
def trailerPresentOf (flags : Byte) : Bool := flags.getLsbD 0

/-- The axle selector of a SLIP OVERRIDE frame; none for a value not listed (R52). -/
def overrideAxles : Nat → Option AxleSelector
  | 1 => some .front
  | 2 => some .rear
  | 3 => some .both
  | _ => none

/-- The override code of a SLIP OVERRIDE frame: off, or a forced state; none for a value not listed (R52). -/
def overrideCode : Nat → Option (Option SlipState)
  | 0 => some none
  | 1 => some (some .grip)
  | 2 => some (some .slip)
  | 3 => some (some .spin)
  | _ => none

/-- The axle selector of an INTERVENTION frame, bits 3..0: any code other than FRONT and REAR is taken as BOTH (R63). -/
def interventionAxles (axleByte : Byte) : AxleSelector :=
  match axleByte.toNat % 16 with
  | 1 => .front
  | 2 => .rear
  | _ => .both

/-- Bit 4 of the same byte: NO TRANSFER. -/
def noTransferOf (axleByte : Byte) : Bool := axleByte.getLsbD 4

/-- The axle a selector names, or both. -/
def AxleSelector.names : AxleSelector → Axle → Bool
  | .front, .front => true
  | .rear, .rear => true
  | .both, _ => true
  | _, _ => false

/-- The inverter state a maintenance word's 3-bit code names (R85). -/
def inverterOfCode : Nat → InverterState
  | 0 => .off
  | 1 => .ready
  | 2 => .run
  | 3 => .derate
  | _ => .fault

/-- The axle a service parameter names; none for a value not listed (section 8.7.4). -/
def serviceAxle : Nat → Option Axle
  | 1 => some .front
  | 2 => some .rear
  | _ => none

/-- The loopback kind a SET LOOPBACK parameter names; none for a value not listed (section 8.7.4). -/
def loopOfCode : Nat → Option LoopState
  | 0 => some .opened
  | 1 => some .nearTransparent
  | 2 => some .nearOpaque
  | 3 => some .far
  | _ => none

/-! ## Codes -/

/-- The code of a device state (R1). -/
def DeviceState.code : DeviceState → Nat
  | .init => 0
  | .standby => 1
  | .active => 2
  | .service => 3
  | .safeHold => 4

/-- The code of a link state in STATUS B (R121). -/
def LinkState.code : LinkState → Nat
  | .off => 0
  | .acquire => 1
  | .up => 2
  | .impaired => 3
  | .lost => 4

/-- The code of an inverter state in STATUS B (R85). -/
def InverterState.code : InverterState → Nat
  | .off => 0
  | .ready => 1
  | .run => 2
  | .derate => 3
  | .fault => 4

/-- The code of a slip state in STATUS B. -/
def SlipState.code : SlipState → Nat
  | .grip => 0
  | .slip => 1
  | .spin => 2

/-- The code of a loopback state in READ LINK COUNTERS (section 8.7.4). -/
def LoopState.code : LoopState → Nat
  | .opened => 0
  | .nearTransparent => 1
  | .nearOpaque => 2
  | .far => 3

/-- The code of a reset cause in READ IDENTITY (section 8.7.4). -/
def resetCauseCode : ResetKind → Nat
  | .power => 1
  | .pin => 2
  | .restart => 3

/-- The code of an intervention kind, which is its action code (section 8.7.1). -/
def InterventionKind.code : InterventionKind → Nat
  | .axleCap => 1
  | .totalCap => 2
  | .shareHold => 3
  | .regenCut => 4

/-- The code of an axle selector. -/
def AxleSelector.code : AxleSelector → Nat
  | .front => 1
  | .rear => 2
  | .both => 3

/-- The value of an answer code (section 8.7.2). -/
def AnswerCode.code : AnswerCode → Byte
  | .accepted => 0x01#8
  | .pending => 0x02#8
  | .updated => 0x03#8
  | .displaced => 0x04#8
  | .dropped => 0x05#8
  | .released => 0x06#8
  | .expired => 0x07#8
  | .cleared => 0x08#8
  | .notFound => 0x09#8
  | .refusedFull => 0x10#8
  | .refusedWrongState => 0x11#8
  | .refusedBadKind => 0x12#8

/-- The code of a place in an answer (section 8.7.2). -/
def Place.code : Place → Byte
  | .none => 0#8
  | .stack => 1#8
  | .pending => 2#8

/-- The value of a service result (section 8.7.4). -/
def ServiceResult.code : ServiceResult → Byte
  | .done => 0x00#8
  | .busy => 0x01#8
  | .wrongState => 0x02#8
  | .locked => 0x03#8
  | .notErased => 0x04#8
  | .badAddress => 0x05#8
  | .damaged => 0x06#8
  | .eraseFailed => 0x07#8
  | .imageInvalid => 0x08#8
  | .unknownService => 0x09#8

/-- The listed services. -/
inductive Service where
  | enterService | leaveService | readCal | writeCal | eraseSector | bulkErase | lockStore | readLinkCounters
  | setLoopback | readArbiterEntry | readIdentity | restart
deriving DecidableEq, Repr

/-- The code of a service (section 8.7.4). -/
def Service.code : Service → Byte
  | .enterService => 0x01#8
  | .leaveService => 0x02#8
  | .readCal => 0x10#8
  | .writeCal => 0x11#8
  | .eraseSector => 0x12#8
  | .bulkErase => 0x13#8
  | .lockStore => 0x14#8
  | .readLinkCounters => 0x20#8
  | .setLoopback => 0x21#8
  | .readArbiterEntry => 0x22#8
  | .readIdentity => 0x23#8
  | .restart => 0x30#8

/-- The listed services, in the order of their codes. -/
def Service.all : List Service :=
  [.enterService, .leaveService, .readCal, .writeCal, .eraseSector, .bulkErase, .lockStore, .readLinkCounters,
   .setLoopback, .readArbiterEntry, .readIdentity, .restart]

/-- A code is one of the listed ones (R155). -/
def serviceListed (code : Byte) : Bool := Service.all.any (fun v => v.code == code)

end Sys2Proof.Machine
end

