-- ==== Sys2Proof/Machine/Flags.lean ====
section
/-! DEFINITION. The sixteen events, raising, masking and acknowledging them, and the attention line (chapter 9). -/

namespace Sys2Proof.Machine

/-- The events (section 9.1). -/
inductive Event where
  | restarted | demandStale | demandLost | referenceStale | limitStale
  | linkImpaired (axle : Axle) | linkLost (axle : Axle)
  | inverterFault | slipEntered | filterSaturated | powerScaled | shortfall | interventionDropped | frameRejected
deriving DecidableEq, Repr

/-- The bit of an event (section 8.7.3). -/
def Event.bit : Event → Nat
  | .restarted => 0
  | .demandStale => 1
  | .demandLost => 2
  | .referenceStale => 3
  | .limitStale => 4
  | .linkImpaired .front => 5
  | .linkImpaired .rear => 6
  | .linkLost .front => 7
  | .linkLost .rear => 8
  | .inverterFault => 9
  | .slipEntered => 10
  | .filterSaturated => 11
  | .powerScaled => 12
  | .shortfall => 13
  | .interventionDropped => 14
  | .frameRejected => 15

/-- The event set that holds one event. -/
def Event.set (e : Event) : BitVec 16 := 1#16 <<< e.bit

/-- The visible event set: latched and not masked (chapter 9). -/
def EventUnit.visible (u : EventUnit) : BitVec 16 := u.events &&& ~~~u.mask

/-- ATTN_N follows the visible event set at once (R152). -/
def EventUnit.driveAttn (u : EventUnit) : EventUnit := { u with attnLow := u.visible != 0#16 }

/-- A block raises an event: its flag is set in the Event Set, masked or not (R149). -/
def EventUnit.raise (u : EventUnit) (e : Event) : EventUnit := { u with events := u.events ||| e.set }.driveAttn

/-- SET MASK: the Event Mask becomes the event set of the frame (R150). -/
def EventUnit.setMask (u : EventUnit) (events : BitVec 16) : EventUnit := { u with mask := events }.driveAttn

/-- ACKNOWLEDGE: the events named are cleared in the Event Set (R150). -/
def EventUnit.acknowledge (u : EventUnit) (events : BitVec 16) : EventUnit :=
  { u with events := u.events &&& ~~~events }.driveAttn

/-- A block raises an event. -/
def State.raise (s : State) (e : Event) : State := { s with eu := s.eu.raise e }

/-- A block raises an event if its onset has come. -/
def State.raiseIf (s : State) (onset : Bool) (e : Event) : State := if onset then s.raise e else s

end Sys2Proof.Machine
end

