-- ==== Sys2Proof/Machine/Arith.lean ====
section
/-! DEFINITION. The exact integer arithmetic of the control pass and the slip filter: the three roundings, clamping and
saturating (section 5.2 of the scope file), and the bytes of a field. -/

namespace Sys2Proof.Machine

/-- Division rounded toward minus infinity, for a positive divisor. -/
def floorDiv (x y : Int) : Int := x / y

/-- Division rounded toward zero. -/
def truncDiv (x y : Int) : Int := Int.tdiv x y

/-- Division rounded half up, for a positive divisor: the floor of (2x + y) divided by 2y. -/
def roundHalfUp (x y : Int) : Int := (2 * x + y) / (2 * y)

/-- Clamping to lo..hi; for lo above hi the result is lo. -/
def clampInt (lo hi x : Int) : Int := max lo (min x hi)

/-- Clamping a natural number to lo..hi. -/
def clampNat (lo hi x : Nat) : Nat := max lo (min x hi)

/-- Saturating: clamping to the symmetric range of a limit. -/
def saturate (limit x : Int) : Int := clampInt (-limit) limit x

/-- +1 for a value of 0 or more, −1 for a negative one: the sign σ of an accepted demand (R16, R95). -/
def signOf (d : Int) : Int := if 0 ≤ d then 1 else -1

/-- The more significant byte of a 16-bit field. -/
def hiByte (w : BitVec 16) : Byte := w.extractLsb' 8 8

/-- The less significant byte of a 16-bit field. -/
def loByte (w : BitVec 16) : Byte := w.extractLsb' 0 8

/-- A signed field of a frame: two's complement, most significant byte first (R148). -/
def signedBytes (x : Int) : List Byte := [hiByte (BitVec.ofInt 16 x), loByte (BitVec.ofInt 16 x)]

/-- An unsigned field of a frame, most significant byte first (R148). -/
def unsignedBytes (x : Nat) : List Byte := [hiByte (BitVec.ofNat 16 x), loByte (BitVec.ofNat 16 x)]

/-- A flag as one bit of a byte. -/
def flagBit (b : Bool) (k : Nat) : Byte := if b then 1#8 <<< k else 0#8

/-- A small number as a field of a byte, its lowest bit at bit k. -/
def fieldBits (x k : Nat) : Byte := BitVec.ofNat 8 x <<< k

/-- Bytes padded with zeros to n of them, or cut to n. -/
def padTo (n : Nat) (l : List Byte) : List Byte := (l ++ List.replicate n 0#8).take n

end Sys2Proof.Machine
end

