-- ==== Sys2Proof/Machine/Memory.lean ====
section
/-! DEFINITION. The bytes of the Calibration Store as cells in one canonical form: addresses strictly rising, none
beyond the store, and no cell that holds what an unlisted address reads as. -/

namespace Sys2Proof.Machine

/-- The number of byte addresses of the store: four sectors of 256 (chapter 10). -/
abbrev storeSize : Nat := 1024

/-- What an unlisted address reads as: the erased byte (section 10.2). -/
abbrev erasedByte : Byte := 0xFF#8

/-- The byte at an address. -/
def readCell : List Host.Cell → Nat → Byte
  | [], _ => erasedByte
  | (a, b) :: rest, addr => if a = addr then b else readCell rest addr

/-- A byte put in front of cells at higher addresses, listed only if it is not the erased byte. -/
def consCell (addr : Nat) (b : Byte) (rest : List Host.Cell) : List Host.Cell :=
  if b = erasedByte then rest else (addr, b) :: rest

/-- The cells after a byte is written. Writing the erased byte removes the cell. -/
def writeCell : List Host.Cell → Nat → Byte → List Host.Cell
  | [], addr, b => consCell addr b []
  | (a, c) :: rest, addr, b =>
    if addr < a then consCell addr b ((a, c) :: rest)
    else if addr = a then consCell addr b rest
    else (a, c) :: writeCell rest addr b

/-- The cells after bytes are written from an address upward. -/
def writeCells (cells : List Host.Cell) (addr : Nat) : List Byte → List Host.Cell
  | [] => cells
  | b :: rest => writeCells (writeCell cells addr b) (addr + 1) rest

/-- The cells after every byte of a sector is erased. -/
def eraseCells (cells : List Host.Cell) (sector : Nat) : List Host.Cell :=
  cells.filter (fun c => c.1 / 256 != sector)

/-- Addresses strictly rising. -/
def cellsRising : List Host.Cell → Bool
  | [] => true
  | [_] => true
  | (a, _) :: (b, y) :: rest => decide (a < b) && cellsRising ((b, y) :: rest)

/-- The canonical form. -/
def Memory.wf (cells : List Host.Cell) : Bool :=
  cellsRising cells && cells.all (fun c => decide (c.1 < storeSize) && decide (c.2 ≠ erasedByte))

/-- The address of a byte of a sector. -/
def storeAddress (sector offset : Nat) : Nat := 256 * sector + offset

/-- The byte of the store at a sector and offset, as a service or an image check reads it: a DAMAGED sector reads as
zeros (section 10.2, R7). -/
def Store.byte (c : Store) (sector offset : Nat) : Byte :=
  if c.sectors.get sector = .damaged then 0#8 else readCell c.cells (storeAddress sector offset)

/-- A sector becomes DAMAGED; its content is not trusted and is dropped (section 10.2). -/
def Store.damage (c : Store) (sector : Nat) : Store :=
  { c with cells := eraseCells c.cells sector, sectors := c.sectors.set sector .damaged }

/-- An erase of a sector ends: ERASED if it checked as all 0xFF, else DAMAGED (R160). -/
def Store.endErase (c : Store) (sector : Nat) (allErased : Bool) : Store :=
  { c with cells := eraseCells c.cells sector,
           sectors := c.sectors.set sector (if allErased then .erased else .damaged) }

/-- A write completes: the bytes stand in the sector, which is PROGRAMMED (R159). -/
def Store.endWrite (c : Store) (sector offset : Nat) (data : List Byte) : Store :=
  { c with cells := writeCells c.cells (storeAddress sector offset) data,
           sectors := c.sectors.set sector .programmed }

/-- The store after a bulk erase ends (R161). -/
def Store.endBulkErase (c : Store) (e0 e1 e2 e3 : Bool) : Store :=
  (((c.endErase 0 e0).endErase 1 e1).endErase 2 e2).endErase 3 e3

end Sys2Proof.Machine
end

