-- ==== Sys2Proof/Machine/Image.lean ====
section
/-! DEFINITION. The calibration image: where each parameter stands (R164), the range each is clamped to at its point of
use (R38, R60, R62, R112, R136), and the image check (R165). -/

namespace Sys2Proof.Machine

/-- The content an image check reads from the store (R7). -/
def Store.image (c : Store) : Image :=
  { cells := c.cells,
    damaged := ⟨decide (c.sectors.s0 = .damaged), decide (c.sectors.s1 = .damaged),
                decide (c.sectors.s2 = .damaged), decide (c.sectors.s3 = .damaged)⟩ }

/-- An image that gives 0x00 in every position; stands in where no image check has completed, which no pass sees. -/
def Image.zero : Image := ⟨[], Sectors.all true⟩

/-- The byte of the image at a sector and offset: 0x00 throughout a DAMAGED sector (R7, R164). -/
def Image.byte (m : Image) (sector offset : Nat) : Byte :=
  if m.damaged.get sector then 0#8 else readCell m.cells (storeAddress sector offset)

/-- A one-byte field. -/
def Image.u8 (m : Image) (sector offset : Nat) : Nat := (m.byte sector offset).toNat

/-- A two-byte field, most significant byte first (R164). -/
def Image.u16 (m : Image) (sector offset : Nat) : Nat := 256 * m.u8 sector offset + m.u8 sector (offset + 1)

/-- A two-byte signed field. -/
def Image.s16 (m : Image) (sector offset : Nat) : Int := (BitVec.ofNat 16 (m.u16 sector offset)).toInt

/-! ## Sector 0 -/

/-- The image version (R156, R164). -/
def Image.version (m : Image) : Nat := m.u16 0 0x02

/-! ## Sector 1: chassis configuration -/

/-- The role a stored role code names; any code not listed is NONE (R137, R164). -/
def roleOfCode : Nat → Role
  | 1 => .ds
  | 2 => .sc
  | 3 => .bm
  | 4 => .tm
  | 5 => .st
  | _ => .none

/-- A number 0 to 7 as a source number. -/
def sourceOf (n : Nat) : Source := ⟨n % 8, Nat.mod_lt n (by decide)⟩

/-- The Source Table entry of source n (R164); its bounds as stored, clamped in R62. -/
def Image.sourceEntry (m : Image) (n : Nat) : SourceEntry :=
  { role := roleOfCode (m.u8 1 (0x04 + 2 * n)),
    lower := m.u8 1 (0x05 + 2 * n) / 16,
    upper := m.u8 1 (0x05 + 2 * n) % 16 }

/-- The calibrated chassis configuration (R7, R136, R137): the base with its seven lowest bits 0, clamped to
0x000..0x780, and the own source number clamped to 0..7. -/
def Image.chassis (m : Image) : ChassisConfig :=
  { base := min (m.u16 1 0x00 / 128 * 128) 0x780,
    own := sourceOf (min (m.u8 1 0x02) 7),
    table := [0, 1, 2, 3, 4, 5, 6, 7].map m.sourceEntry }

/-- The default chassis configuration (R7). No source of it carries SC or TM, so its level ranges are not used. -/
def ChassisConfig.default : ChassisConfig :=
  { base := 0x600, own := 7,
    table := [⟨.none, 0, 0⟩, ⟨.none, 0, 0⟩, ⟨.none, 0, 0⟩, ⟨.none, 0, 0⟩, ⟨.none, 0, 0⟩, ⟨.none, 0, 0⟩,
              ⟨.st, 0, 0⟩, ⟨.none, 0, 0⟩] }

/-- The entry of a source. -/
def ChassisConfig.entry (c : ChassisConfig) (src : Source) : SourceEntry :=
  c.table.getD src.val ⟨.none, 0, 0⟩

/-- The lowest-numbered source whose entry carries the role, the TQ620's own entry reading as NONE (R137). -/
def ChassisConfig.boundTo (c : ChassisConfig) (r : Role) : Option Source :=
  ([0, 1, 2, 3, 4, 5, 6, 7] : List Source).find? (fun n => n != c.own && (c.entry n).role == r)

/-- The binding formed from a chassis configuration (R137). -/
def ChassisConfig.binding (c : ChassisConfig) : Binding :=
  ⟨c.boundTo .ds, c.boundTo .sc, c.boundTo .bm, c.boundTo .tm, c.boundTo .st⟩

/-! ## Sector 1: modes, load and limits -/

/-- The code of a mode (section 2.5). -/
def Mode.code : Mode → Nat
  | .normal => 0
  | .tow => 1
  | .terrain => 2
  | .rear => 3

/-- The offset of a mode's line of the Mode Table (R164). -/
def Mode.offset (m : Mode) : Nat := 0x14 + 12 * m.code

/-- b_lo, clamped to 0..1024 (R96, R112). -/
def Image.shareLow (m : Image) (k : Mode) : Int := (min (m.u16 1 k.offset) 1024 : Nat)

/-- b_hi, clamped to 0..1024 (R96, R112). -/
def Image.shareHigh (m : Image) (k : Mode) : Int := (min (m.u16 1 (k.offset + 2)) 1024 : Nat)

/-- Kslip, 0..255 (R112). -/
def Image.slipGain (m : Image) (k : Mode) : Int := (m.u8 1 (k.offset + 4) : Nat)

/-- The transfer flag, bit 0 of its byte (R164). -/
def Image.transferFlag (m : Image) (k : Mode) : Bool := (m.byte 1 (k.offset + 5)).getLsbD 0

/-- R_up, clamped to 1..24 000 (R112). -/
def Image.rateUp (m : Image) (k : Mode) : Int := (clampNat 1 24000 (m.u16 1 (k.offset + 6)) : Nat)

/-- R_down, clamped to 1..24 000 (R112). -/
def Image.rateDown (m : Image) (k : Mode) : Int := (clampNat 1 24000 (m.u16 1 (k.offset + 8)) : Nat)

/-- The switch threshold of a mode, clamped to 0..24 000 (R38). -/
def Image.switchThreshold (m : Image) (k : Mode) : Int := (min (m.u16 1 (k.offset + 10)) 24000 : Nat)

/-- Speed breakpoint v_j, used as stored (R38). -/
def Image.breakpoint (m : Image) (j : Nat) : Int := (m.u16 1 (0x44 + 2 * j) : Nat)

/-- Load threshold t1, clamped to 0..2500 (R38). -/
def Image.loadThreshold1 (m : Image) : Nat := min (m.u16 1 0x54) 2500

/-- Load threshold t2, clamped to 0..2500 (R38). -/
def Image.loadThreshold2 (m : Image) : Nat := min (m.u16 1 0x56) 2500

/-- The fallback band, clamped to 0..3 (R38). -/
def Image.fallbackBand (m : Image) : Nat := min (m.u8 1 0x58) 3

/-- The fallback ramp, clamped to 1..24 000 (R38). -/
def Image.fallbackRamp (m : Image) : Int := (clampNat 1 24000 (m.u16 1 0x5A) : Nat)

/-- The shortfall threshold, clamped to 0..24 000 (R112). -/
def Image.shortfallThreshold (m : Image) : Int := (min (m.u16 1 0x5C) 24000 : Nat)

/-- The fallback discharge limit, clamped to 0..10 000 (R112). -/
def Image.fallbackDischarge (m : Image) : Nat := min (m.u16 1 0x5E) 10000

/-- The fallback charge limit, clamped to 0..10 000 (R112). -/
def Image.fallbackCharge (m : Image) : Nat := min (m.u16 1 0x60) 10000

/-- The motoring multiplier of an axle, clamped to 0..8191 (R112). -/
def Image.motoring (m : Image) : Axle → Int
  | .front => (min (m.u16 1 0x62) 8191 : Nat)
  | .rear => (min (m.u16 1 0x66) 8191 : Nat)

/-- The generating multiplier of an axle, clamped to 0..8191 (R112). -/
def Image.generating (m : Image) : Axle → Int
  | .front => (min (m.u16 1 0x64) 8191 : Nat)
  | .rear => (min (m.u16 1 0x68) 8191 : Nat)

/-! ## Sector 2: the Split Map -/

/-- The Split Map value y_j of a mode and load band; a value above 1024 is taken as 1024 (R30, R164). -/
def Image.splitValue (m : Image) (k : Mode) (band j : Nat) : Int :=
  (min (m.u16 2 (64 * k.code + 16 * band + 2 * j)) 1024 : Nat)

/-! ## Sector 3: slip parameters -/

/-- The offset of an axle's block (R164). -/
def slipBlock : Axle → Nat
  | .front => 0x00
  | .rear => 0x80

/-- The filter length N, clamped to 4..16 (R44, R60). -/
def Image.filterLength (m : Image) (x : Axle) : Nat := clampNat 4 16 (m.u8 3 (slipBlock x))

/-- The threshold slope kθ, 0..255 (R60). -/
def Image.thresholdSlope (m : Image) (x : Axle) : Int := (m.u8 3 (slipBlock x + 0x01) : Nat)

/-- Coefficient c_k, used as stored (R45, R60). -/
def Image.coefficient (m : Image) (x : Axle) (k : Nat) : Int := m.s16 3 (slipBlock x + 0x02 + 2 * k)

/-- The base threshold θ0, clamped to 0..32 767 (R60). -/
def Image.baseThreshold (m : Image) (x : Axle) : Int := (min (m.u16 3 (slipBlock x + 0x22)) 32767 : Nat)

/-- The spin margin Δspin, clamped to 0..32 767 (R60). -/
def Image.spinMargin (m : Image) (x : Axle) : Int := (min (m.u16 3 (slipBlock x + 0x24)) 32767 : Nat)

/-- The hysteresis, clamped to 0..32 767 (R60). -/
def Image.hysteresis (m : Image) (x : Axle) : Int := (min (m.u16 3 (slipBlock x + 0x26)) 32767 : Nat)

/-! ## The image check (R165) -/

/-- One step of the CRC-32 register. -/
def crc32Step (r : BitVec 32) : BitVec 32 :=
  if r.getLsbD 0 then (r >>> 1) ^^^ 0xEDB88320#32 else r >>> 1

/-- One byte taken into the CRC-32 register: combined into its eight least significant bits, then eight steps. -/
def crc32Byte (r : BitVec 32) (b : Byte) : BitVec 32 :=
  crc32Step (crc32Step (crc32Step (crc32Step (crc32Step (crc32Step (crc32Step (crc32Step (r ^^^ b.setWidth 32))))))))

/-- The CRC-32 of a run of bytes. -/
def crc32 (bytes : List Byte) : BitVec 32 := bytes.foldl crc32Byte 0xFFFFFFFF#32 ^^^ 0xFFFFFFFF#32

/-- The 256 bytes of a sector. -/
def Image.sectorBytes (m : Image) (sector : Nat) : List Byte := (List.range 256).map (m.byte sector)

/-- The CRC-32 stored in sector 0, most significant byte first. -/
def Image.storedCrc (m : Image) : BitVec 32 := m.byte 0 0x04 ++ m.byte 0 0x05 ++ m.byte 0 0x06 ++ m.byte 0 0x07

/-- The three criteria of a valid image (R165). -/
def Image.valid (m : Image) : Bool :=
  m.damaged.toList.all (!·) && m.byte 0 0x00 == 0xA5#8 && m.byte 0 0x01 == 0x3C#8 &&
    crc32 (m.sectorBytes 1 ++ m.sectorBytes 2 ++ m.sectorBytes 3) == m.storedCrc

end Sys2Proof.Machine
end

