-- ==== Sys2Proof/Machine/Ops.lean ====
section
/-! DEFINITION. Operations that several commands share: taking a frame into the port's checks, answers and responses,
resets, and the completion of an image check. -/

namespace Sys2Proof.Machine

/-! ## The port's checks (R136 to R138) -/

/-- The port takes frames: it is ON and the device is past INIT (R136; a TQ620 held in reset is in INIT, R1). -/
def State.portTakes (s : State) : Bool := s.cp.state == .on && s.osc.device != .init

/-- A source holds a role's binding. -/
def Binding.has (b : Binding) (src : Source) : Role → Bool
  | .none => false
  | .ds => b.ds == some src
  | .sc => b.sc == some src
  | .bm => b.bm == some src
  | .tm => b.tm == some src
  | .st => b.st == some src

/-- A source is bound to a role, by the binding in force (R137). -/
def State.bound (s : State) (src : Source) (r : Role) : Bool :=
  match s.cp.binding with
  | none => false
  | some b => b.has src r

/-- A frame of the right length for its kind arrives from a source (R136, R138, R139): it is discarded unseen if the
port takes no frames; rejected, latching FRAME REJECTED, if no role that may send its kind is bound to its source;
and else handed to its owner. -/
def State.checkFrame (s : State) (src : Source) (roles : List Role) (owner : State → State) : State :=
  if s.portTakes then
    if roles.any (s.bound src) then owner s else s.raise .frameRejected
  else s

/-! ## The answer queue (R143) -/

/-- The capacity of the answer queue. -/
abbrev answerCapacity : Nat := 8

/-- The frame in transmission is the head of the answer queue. -/
def Port.answerOnBus (p : Port) : Bool :=
  match p.transmission with
  | some t => t.origin == .answer
  | none => false

/-- The answer queue with the oldest answer that is not in transmission discarded (R143). -/
def dropOldestAnswer (headOnBus : Bool) : List Answer → List Answer
  | [] => []
  | a :: rest => if headOnBus then a :: rest.tail else rest

/-- An answer is added at the back; a full queue makes room first (R143). -/
def Port.addAnswer (p : Port) (a : Answer) : Port :=
  if p.answers.length < answerCapacity then { p with answers := p.answers ++ [a] }
  else { p with answers := dropOldestAnswer p.answerOnBus p.answers ++ [a] }

/-- Answers are added in their order (R78). -/
def Port.addAnswers (p : Port) (l : List Answer) : Port := l.foldl Port.addAnswer p

/-! ## The service queues (R154) -/

/-- The capacity of the Service Queue and of the response queue. -/
abbrev serviceCapacity : Nat := 4

/-- The room in the response queue: 4 less the responses held, less 1 while a request is in execution (R154). -/
def ServiceUnit.room (u : ServiceUnit) : Nat :=
  serviceCapacity - u.responses.length - (if u.operation.isSome then 1 else 0)

/-- A response to a request, its payload padded with zeros (section 8.7.2). -/
def Request.response (r : Request) (result : ServiceResult) (payload : List Byte) : Response :=
  ⟨r.source, r.code, result, padTo 6 payload⟩

/-- The request at the head of the queue completes: its response goes to the back of the response queue and it leaves
the Service Queue (R154). -/
def ServiceUnit.complete (u : ServiceUnit) (r : Request) (result : ServiceResult) (payload : List Byte) : ServiceUnit :=
  { u with queue := u.queue.tail, responses := u.responses ++ [r.response result payload], operation := none }

/-- The request at the head of the queue completes. -/
def State.respond (s : State) (r : Request) (result : ServiceResult) (payload : List Byte) : State :=
  { s with su := s.su.complete r result payload }

/-- The request at the head of the queue goes into execution, for an operation that takes time. -/
def State.execute (s : State) (op : Operation) : State := { s with su := { s.su with operation := some op } }

/-- The request that R154 lets the SU begin now: the head of the Service Queue, when no request is in execution, the
response queue has room and restart pending is clear. No request is begun in INIT, where the queue is empty. -/
def State.dueRequest (s : State) : Option Request :=
  if s.su.operation = none ∧ 0 < s.su.room ∧ s.su.restartPending = false ∧ s.osc.device ≠ .init then s.su.queue.head?
  else none

/-! ## Loopback transitions (R130) -/

/-- A slot in progress whose result is still awaited yields none (R130). -/
def SlotPhase.voided : SlotPhase → SlotPhase
  | .waiting => .noResult
  | p => p

/-- The loopback transition of a controller to a kind (R130). -/
def Link.transition (l : Link) (kind : LoopState) : Link :=
  { l with loop := kind, state := .acquire, goodRun := 0, badRun := 0, prevWord := none, ackVerified := false,
           complete := false, slot := l.slot.voided }

/-- A controller whose loopback is closed opens it by a loopback transition (R133). -/
def Link.openLoop (l : Link) : Link := if l.loop = .opened then l else l.transition .opened

/-! ## The completion of an image check (R6, R7, R11, R164, R165) -/

/-- The calibration in force, the chassis configuration in force and the binding are set from the store content the
check read (R7, R137). -/
def State.adoptImage (s : State) : State :=
  let m := s.store.image
  let c := if m.valid then m.chassis else .default
  { s with image := some m, chassis := some c, cp := { s.cp with binding := some c.binding } }

/-- The calibration in force, for the blocks that use it; zeros before the first image check has completed. -/
def State.calibration (s : State) : Image := s.image.getD .zero

/-! ## Resets (R2 to R4, R163) -/

/-- What a reset leaves of the store when it abandons an operation (R163). -/
def Store.abandon (c : Store) : Option Operation → Store
  | some (.write sector _ _) => c.damage sector
  | some (.erase sector) => c.damage sector
  | some .bulkErase => { (((c.damage 0).damage 1).damage 2).damage 3 with locked := false }
  | some .lock => c
  | some .imageCheck => c
  | none => c

/-- The TQ620 is held in reset (R2). -/
def OperatingState.held (o : OperatingState) : Bool := o.supplyLow || o.pinLow || o.restartPeriod

/-- The condition of a kind holds the TQ620 in reset. -/
def OperatingState.holds (o : OperatingState) : ResetKind → Bool
  | .power => o.supplyLow
  | .pin => o.pinLow
  | .restart => o.restartPeriod

/-- The condition of a kind begins or ends. -/
def OperatingState.setHold (o : OperatingState) (kind : ResetKind) (b : Bool) : OperatingState :=
  match kind with
  | .power => { o with supplyLow := b }
  | .pin => { o with pinLow := b }
  | .restart => { o with restartPeriod := b }

/-- The cause recorded when a reset begins: its kind, or, when the TQ620 is already held in reset, POWER if either of
the overlapping resets is a POWER reset and PIN otherwise (R3). -/
def OperatingState.causeOf (o : OperatingState) (kind : ResetKind) : ResetKind :=
  if o.held then (if kind = .power ∨ o.supplyLow = true then .power else .pin) else kind

/-- A reset of a kind begins (R2, R4): every volatile piece of state takes its reset value, the store keeps its content
apart from the damage of an abandoned operation, and the device is held in reset in INIT. -/
def State.enterReset (s : State) (kind : ResetKind) : State :=
  { s with
    osc := { s.osc with device := .init, cause := s.osc.causeOf kind, checking := false }.setHold kind true
    du := .reset
    se := .reset
    ia := .reset
    cu := ⟨.reset, .reset⟩
    ae := .reset
    links := ⟨.reset, .reset⟩
    eu := .reset
    cp := .reset
    su := .reset
    store := s.store.abandon s.su.operation
    image := none
    chassis := none }

/-- A reset condition begins, unless it holds already: a line that is low cannot be driven low again (R2). -/
def State.beginReset (s : State) (kind : ResetKind) : State :=
  if s.osc.holds kind then s else s.enterReset kind

/-- A reset condition ends; when no other holds the TQ620 it leaves reset, and the image check of INIT begins
(R2, R5). -/
def State.endReset (s : State) (kind : ResetKind) : State :=
  if s.osc.holds kind then
    let o := s.osc.setHold kind false
    { s with osc := { o with checking := !o.held } }
  else s

end Sys2Proof.Machine
end

