-- ==== Sys2Proof/Machine/Slip.lean ====
section
/-! DEFINITION. The Slip Estimator (chapter 3): the Reference Record, the slip filter and state machine, overrides. -/

namespace Sys2Proof.Machine

/-! ## The Reference Record -/

/-- The filters of an axle are cleared; its override record is left (R57). -/
def SlipAxle.clear (a : SlipAxle) : SlipAxle := { SlipAxle.reset with override := a.override }

/-- The SE takes a REFERENCE frame: the speeds are taken and the record is FRESH (R39); an entry into FRESH from STALE
or ABSENT clears both filters (R57). -/
def SlipEstimator.takeReference (e : SlipEstimator) (front rear : Int) : SlipEstimator :=
  { reference := ⟨⟨front, rear⟩, .fresh⟩,
    axle := if e.reference.freshness = .fresh then e.axle else ⟨e.axle.front.clear, e.axle.rear.clear⟩ }

/-- A REFERENCE frame is taken and the record's timer restarts (R39, R140). -/
def State.takeReference (s : State) (front rear : BitVec 16) : State :=
  { s with
    se := s.se.takeReference front.toInt rear.toInt,
    cp := { s.cp with timers := { s.cp.timers with reference := true } } }

/-- REFERENCE (R138, R139, R39, R40). -/
def execReference (src : Source) (front rear : BitVec 16) (s : State) : Host.Outcome State Fault Refusal :=
  .next (s.checkFrame src [.sc] (·.takeReference front rear))

/-- The record enters STALE, and both override records are set to off (R40, R55). -/
def SlipEstimator.referenceStale (e : SlipEstimator) : SlipEstimator :=
  { reference := { e.reference with freshness := .stale },
    axle := ⟨{ e.axle.front with override := none }, { e.axle.rear with override := none }⟩ }

/-- The 20 ms timer of the Reference Record expires: the record becomes STALE, REFERENCE STALE latches, the overrides
are cleared (R40, R55). -/
def execReferenceTimer (s : State) : Host.Outcome State Fault Refusal :=
  .next (
    if s.cp.timers.reference then
      { s with
        se := s.se.referenceStale,
        cp := { s.cp with timers := { s.cp.timers with reference := false } } }.raise .referenceStale
    else s)

/-! ## The slip filter -/

/-- The raw sample: axle speed less reference speed, saturated at 32 767 (R42). -/
def rawSample (speed reference : Int) : Int := saturate 32767 (speed - reference)

/-- The delay line after a sample: the newest in tap 0, sixteen in all (R44). -/
def shiftTaps (taps : List Int) (r : Int) : List Int := (r :: taps).take 16

/-- The sum of products over taps 0 to N − 1, exact (R45). -/
def filterSum (m : Image) (x : Axle) (taps : List Int) : Int :=
  (((List.range (m.filterLength x)).zip taps).map (fun p => m.coefficient x p.1 * p.2)).sum

/-- The sum divided by 32 768, rounded half up (R46). -/
def filterRounded (m : Image) (x : Axle) (taps : List Int) : Int := floorDiv (filterSum m x taps + 16384) 32768

/-- The entry threshold of an axle at a reference speed (R47). -/
def enterThreshold (m : Image) (x : Axle) (reference : Int) : Int :=
  m.baseThreshold x + truncDiv ((reference.natAbs : Int) * m.thresholdSlope x) 256

/-- The spin threshold (R47). -/
def spinThreshold (m : Image) (x : Axle) (reference : Int) : Int := enterThreshold m x reference + m.spinMargin x

/-- The exit threshold (R47). -/
def exitThreshold (m : Image) (x : Axle) (reference : Int) : Int :=
  max 0 (enterThreshold m x reference - m.hysteresis x)

/-- One step of the automatic slip state machine on an effective slip and the three thresholds (R49 to R51). -/
def SlipAxle.classify (a : SlipAxle) (slip enter spin exit : Int) : SlipAxle :=
  match a.auto with
  | .grip =>
    if enter < slip then
      if 4 ≤ a.enterCount + 1 then { a with auto := .slip, enterCount := 0 }
      else { a with enterCount := a.enterCount + 1 }
    else { a with enterCount := 0 }
  | .slip =>
    if spin < slip then { a with auto := .spin, exitCount := 0 }
    else if slip < exit then
      if 8 ≤ a.exitCount + 1 then { a with auto := .grip, exitCount := 0 }
      else { a with exitCount := a.exitCount + 1 }
    else { a with exitCount := 0 }
  | .spin => if slip ≤ enter then { a with auto := .slip, exitCount := 0 } else a

/-- The filter of an axle takes a raw sample: delay line, filtered slip, saturation marker (R44 to R46). -/
def SlipAxle.filter (a : SlipAxle) (m : Image) (x : Axle) (r : Int) : SlipAxle :=
  let taps := shiftTaps a.taps r
  let v := filterRounded m x taps
  { a with taps := taps, filtered := saturate 32767 v, saturated := decide (saturate 32767 v ≠ v) }

/-- A filter step of an axle: the filter, then the state machine on the effective slip σ·s (R44 to R51). -/
def SlipAxle.step (a : SlipAxle) (m : Image) (x : Axle) (sigma speed reference : Int) : SlipAxle :=
  let b := a.filter m x (rawSample speed reference)
  b.classify (sigma * b.filtered) (enterThreshold m x reference) (spinThreshold m x reference)
    (exitThreshold m x reference)

/-- The SE takes the axle speed of a good report frame in normal operation: a sample if the Reference Record is FRESH
(R41), with the onsets of FILTER SATURATED (R46) and SLIP ENTERED (R49). -/
def State.takeSample (s : State) (x : Axle) (speed : Int) : State :=
  if s.se.reference.freshness = .fresh then
    let a := s.se.axle.get x
    let b := a.step s.calibration x (signOf s.ae.record.accepted) speed (s.se.reference.speed.get x)
    let t := { s with se := { s.se with axle := s.se.axle.set x b } }
    (t.raiseIf (b.saturated && !a.saturated) .filterSaturated).raiseIf
      (decide (a.auto = .grip) && decide (b.auto = .slip)) .slipEntered
  else s

/-! ## Overrides -/

/-- The displayed slip state: the forced state of an override in force, else the automatic one (R53). -/
def SlipAxle.displayed (a : SlipAxle) : SlipState := a.override.getD a.auto

/-- The override record of an axle that the selector names takes the code (R52). -/
def SlipAxle.setOverride (a : SlipAxle) (named : Bool) (code : Option SlipState) : SlipAxle :=
  if named then { a with override := code } else a

/-- The SE takes a SLIP OVERRIDE frame: it is ignored unless the Reference Record is FRESH and both of its values are
listed ones (R52). -/
def SlipEstimator.takeOverride (e : SlipEstimator) (axleCode code : Byte) : SlipEstimator :=
  match overrideAxles axleCode.toNat, overrideCode code.toNat with
  | some sel, some c =>
    if e.reference.freshness = .fresh then
      { e with axle := ⟨e.axle.front.setOverride (sel.names .front) c, e.axle.rear.setOverride (sel.names .rear) c⟩ }
    else e
  | _, _ => e

/-- SLIP_OVERRIDE (R138, R139, R52). -/
def execSlipOverride (src : Source) (axleCode code : Byte) (s : State) : Host.Outcome State Fault Refusal :=
  .next (s.checkFrame src [.sc] (fun t => { t with se := t.se.takeOverride axleCode code }))

end Sys2Proof.Machine
end

