-- ==== Sys2Proof/Machine/Pass.lean ====
section
/-! DEFINITION. The control pass: its snapshot, stages 1 to 7 (chapters 2, 5 and 6), and its completion (chapter 1). -/

namespace Sys2Proof.Machine

/-! ## The snapshot (R14) -/

/-- What a pass takes at its start (R14). -/
def State.snapshot (s : State) : Snapshot where
  device := s.osc.device
  demand := s.du.demand
  heldDemand := s.du.heldDemand
  load := s.du.load
  mode := s.du.mode
  pendingMode := s.du.pendingMode
  blend := s.du.blend
  reference := s.se.reference
  filtered := ⟨s.se.axle.front.filtered, s.se.axle.rear.filtered⟩
  displayed := ⟨s.se.axle.front.displayed, s.se.axle.rear.displayed⟩
  limits := s.ae.limits
  prev := s.ae.prev
  shortfall := s.ae.shortfall
  stack := s.ia.stack
  drive := ⟨s.cu.front.drive, s.cu.rear.drive⟩
  regen := ⟨s.cu.front.regen, s.cu.rear.regen⟩
  inverter := ⟨s.cu.front.inverter, s.cu.rear.inverter⟩
  link := ⟨s.links.front.state, s.links.rear.state⟩
  speed := ⟨s.links.front.speed, s.links.rear.speed⟩
  image := s.calibration

/-! ## What the stack applies (R79) -/

/-- The smallest of a list of values, none for an empty list. -/
def smallest : List Nat → Option Nat
  | [] => none
  | x :: rest =>
    match smallest rest with
    | none => some x
    | some y => some (min x y)

/-- The smallest TOTAL CAP of the stack (R27, R79). -/
def totalCapOf (stack : List Entry) : Option Nat :=
  smallest ((stack.filter (fun e => e.kind == .totalCap)).map (·.value))

/-- The AXLE CAP entries that name an axle or BOTH. -/
def axleCapsOf (stack : List Entry) (x : Axle) : List Entry :=
  stack.filter (fun e => e.kind == .axleCap && e.axle.names x)

/-- The axle cap of an axle (R79). -/
def axleCapOf (stack : List Entry) (x : Axle) : Option Nat := smallest ((axleCapsOf stack x).map (·.value))

/-- NO TRANSFER of an axle (R79). -/
def noTransferFrom (stack : List Entry) (x : Axle) : Bool := (axleCapsOf stack x).any (·.noTransfer)

/-- The regen cut of an axle (R79). -/
def regenCutOf (stack : List Entry) (x : Axle) : Bool := stack.any (fun e => e.kind == .regenCut && e.axle.names x)

/-- The share hold: the SHARE HOLD entry with the lowest level number, which is the topmost one (R79). -/
def shareHoldOf (stack : List Entry) : Option Nat := (stack.find? (fun e => e.kind == .shareHold)).map (·.value)

/-! ## Stage 1: accepted demand (R25 to R27) -/

/-- A demand moved toward 0 by the fallback ramp (R26). -/
def rampToZero (d ramp : Int) : Int := if 0 ≤ d then max 0 (d - ramp) else min 0 (d + ramp)

/-- The held demand formed from a FRESH record (R25). -/
def DemandRecord.held (r : DemandRecord) : Int :=
  if r.driveEnable then (if !r.regenPermitted && decide (r.torque < 0) then 0 else r.torque) else 0

/-- The new held demand (R25, R26). DEDUCED, unsafe (log entry 32): a record that took regen permitted clear and went STALE
before any pass saw it FRESH keeps a negative held demand, as R26 says of STALE, where R37 says that the next pass clamps it to
0 under R25. -/
def Snapshot.newHeld (p : Snapshot) : Int :=
  match p.demand.freshness with
  | .fresh => p.demand.held
  | .absent => p.heldDemand
  | .stale => p.heldDemand
  | .lost => rampToZero p.heldDemand p.image.fallbackRamp

/-- D_acc: the held demand within the smallest TOTAL CAP (R27). DEDUCED, unsafe (log entry 30): R9 says that with drive enable
clear D_acc is 0 and that the other chapters carry this out, and R25 to R27 do so from the first pass that finds the record
FRESH; in a pass that finds it STALE with drive enable clear and the held demand not 0, the model follows R26 and R27. -/
def Snapshot.accepted (p : Snapshot) : Int :=
  match totalCapOf p.stack with
  | none => p.newHeld
  | some c => clampInt (-(c : Int)) c p.newHeld

/-! ## Stage 2: the base share (R28 to R30, R34) -/

/-- The map speed (R28). -/
def Snapshot.mapSpeed (p : Snapshot) : Int :=
  match p.reference.freshness with
  | .absent => 0
  | _ => max (p.reference.speed.front.natAbs : Int) (p.reference.speed.rear.natAbs : Int)

/-- The load band (R29). -/
def Snapshot.loadBand (p : Snapshot) : Nat :=
  match p.load.freshness with
  | .fresh =>
    if !p.load.trailer then 0
    else if p.load.tongue < p.image.loadThreshold1 then 1
    else if p.load.tongue < p.image.loadThreshold2 then 2
    else 3
  | _ => p.image.fallbackBand

/-- Interpolation along breakpoints at a speed above the first: in the first segment whose upper breakpoint is above
the speed (R30); past the last breakpoint, the last value. -/
def interpolate (v : Int) : List (Int × Int) → Int
  | [] => 0
  | [(_, y)] => y
  | (v0, y0) :: (v1, y1) :: rest =>
    if v < v1 then y0 + roundHalfUp ((y1 - y0) * (v - v0)) (v1 - v0) else interpolate v ((v1, y1) :: rest)

/-- The breakpoints with the Split Map row of a mode and load band. -/
def Image.splitRow (m : Image) (k : Mode) (band : Nat) : List (Int × Int) :=
  [0, 1, 2, 3, 4, 5, 6, 7].map (fun j => (m.breakpoint j, m.splitValue k band j))

/-- The base share of the Split Map at a speed (R30). DEDUCED, unsafe (log entry 33): the cases are tried in the order of
R30, so a speed that breakpoints out of order put both at or below the first and at or above the last gives the first value. -/
def Image.lookup (m : Image) (k : Mode) (band : Nat) (v : Int) : Int :=
  if v ≤ m.breakpoint 0 then m.splitValue k band 0
  else if m.breakpoint 7 ≤ v then m.splitValue k band 7
  else interpolate v (m.splitRow k band)

/-- The pass count k of this pass: increased by 1 while a blend is active (R34). -/
def Snapshot.blendCount (p : Snapshot) : Nat := if p.blend.active then p.blend.count + 1 else p.blend.count

/-- b_base (R30, R34). -/
def Snapshot.baseShare (p : Snapshot) : Int :=
  let y := p.image.lookup p.mode p.loadBand p.mapSpeed
  if p.blend.active then p.blend.start + truncDiv ((y - p.blend.start) * (p.blendCount : Int)) 250 else y

/-! ## Stage 3: the share (R95 to R97) -/

/-- The excess of an axle over its entry threshold (R95). -/
def Snapshot.slipExcess (p : Snapshot) (x : Axle) : Int :=
  let above := max 0 (signOf p.accepted * p.filtered.get x - enterThreshold p.image x (p.reference.speed.get x))
  match p.displayed.get x with
  | .grip => 0
  | .slip => above
  | .spin => min (2 * above) 32767

/-- The slip correction c (R96). -/
def Snapshot.correction (p : Snapshot) : Int :=
  if p.reference.freshness = .fresh then
    truncDiv ((p.slipExcess .rear - p.slipExcess .front) * p.image.slipGain p.mode) 256
  else 0

/-- The share b of the split (R96, R97). -/
def Snapshot.share (p : Snapshot) : Int :=
  match shareHoldOf p.stack with
  | some v => v
  | none => clampInt (p.image.shareLow p.mode) (p.image.shareHigh p.mode) (p.baseShare + p.correction)

/-! ## Stage 4: the split (R98) -/

/-- The parts of the two axles, T_F5 and T_R5 (R98). -/
def Snapshot.split (p : Snapshot) : Axles Int :=
  let f := floorDiv (p.accepted * p.share + 512) 1024
  ⟨f, p.accepted - f⟩

/-! ## The effective windows (R88 to R91) -/

/-- A window: the range of torque an axle may be given. -/
structure Window where
  lo : Int
  hi : Int
deriving DecidableEq, Repr

/-- A closed window. -/
def Window.closed : Window := ⟨0, 0⟩

/-- A window is open when at least one of its bounds is not 0 (R92). -/
def Window.isOpen (w : Window) : Bool := w.lo != 0 || w.hi != 0

/-- A torque clamped to a window. -/
def Window.clamp (w : Window) (t : Int) : Int := clampInt w.lo w.hi t

/-- The window from the accepted capabilities, halved for an IMPAIRED link (R88). -/
def Snapshot.rawWindow (p : Snapshot) (x : Axle) : Window :=
  let lo := -(p.regen.get x : Int)
  let hi := (p.drive.get x : Int)
  if p.link.get x = .impaired then ⟨truncDiv lo 2, truncDiv hi 2⟩ else ⟨lo, hi⟩

/-- The conditions under which a window stays as it is and is not closed (R89). -/
def Snapshot.windowStands (p : Snapshot) (x : Axle) : Bool :=
  p.device == .active && (p.link.get x == .up || p.link.get x == .impaired) &&
    (p.inverter.get x == .run || p.inverter.get x == .derate)

/-- The window after the cuts of its negative part (R90). -/
def Snapshot.cutWindow (p : Snapshot) (x : Axle) (w : Window) : Window :=
  if !p.demand.regenPermitted || regenCutOf p.stack x then { w with lo := 0 } else w

/-- The window after the axle cap (R91). -/
def Snapshot.capWindow (p : Snapshot) (x : Axle) (w : Window) : Window :=
  match axleCapOf p.stack x with
  | none => w
  | some v => ⟨max w.lo (-(v : Int)), min w.hi v⟩

/-- The effective window of an axle (R88 to R91). -/
def Snapshot.window (p : Snapshot) (x : Axle) : Window :=
  p.capWindow x (p.cutWindow x (if p.windowStands x then p.rawWindow x else .closed))

/-! ## Stage 5: clamp and transfer (R99 to R102) -/

/-- The part of an axle clamped to its window (R99). -/
def Snapshot.clamped (p : Snapshot) (x : Axle) : Int := (p.window x).clamp (p.split.get x)

/-- The excess of an axle, E_x (R99). -/
def Snapshot.excess (p : Snapshot) (x : Axle) : Int := p.split.get x - p.clamped x

/-- Excess of axle x may go to the other axle (R100). -/
def Snapshot.mayTransfer (p : Snapshot) (x : Axle) : Bool :=
  p.image.transferFlag p.mode && !noTransferFrom p.stack x && p.displayed.get x.other != .spin &&
    (p.window x.other).isOpen

/-- The room of an axle in the direction of an excess (R101). -/
def Snapshot.room (p : Snapshot) (y : Axle) (e : Int) : Int :=
  if 0 < e then (p.window y).hi - p.clamped y else (p.window y).lo - p.clamped y

/-- The amount transferred from an axle to the other (R101). -/
def Snapshot.transferred (p : Snapshot) (x : Axle) : Int :=
  let e := p.excess x
  let r := p.room x.other e
  if e ≠ 0 ∧ p.mayTransfer x = true then (if e.natAbs ≤ r.natAbs then e else r) else 0

/-- T_x6: the clamped value of an axle and what it receives (R101). -/
def Snapshot.fitted (p : Snapshot) (x : Axle) : Int := p.clamped x + p.transferred x.other

/-- U (R102). -/
def Snapshot.unserved (p : Snapshot) : Int := p.accepted - (p.fitted .front + p.fitted .rear)

/-! ## Stage 6: power scaling (R104 to R107) -/

/-- The discharge limit in force (R104). -/
def Snapshot.dischargeLimit (p : Snapshot) : Nat :=
  match p.limits.freshness with
  | .fresh => p.limits.discharge
  | .stale => min p.limits.discharge p.image.fallbackDischarge
  | .absent => p.image.fallbackDischarge

/-- The charge limit in force (R104). -/
def Snapshot.chargeLimit (p : Snapshot) : Nat :=
  match p.limits.freshness with
  | .fresh => p.limits.charge
  | .stale => min p.limits.charge p.image.fallbackCharge
  | .absent => p.image.fallbackCharge

/-- The electrical power of an axle, in 1/16 W (R105). -/
def Snapshot.axlePower (p : Snapshot) (x : Axle) : Int :=
  let mech := p.fitted x * p.speed.get x
  truncDiv (mech * (if 0 ≤ mech then p.image.motoring x else p.image.generating x)) 4096

/-- The electrical power estimate of the pass, E (R105). -/
def Snapshot.power (p : Snapshot) : Int := p.axlePower .front + p.axlePower .rear

/-- The power factor for an estimate and the two limits, all in 1/16 W (R106). -/
def powerFactor (e dis chg : Int) : Int :=
  if dis < e then floorDiv (32768 * dis) e
  else if e < -chg then floorDiv (32768 * chg) (e.natAbs : Int)
  else 32768

/-- f of the pass (R106). -/
def Snapshot.factor (p : Snapshot) : Int :=
  powerFactor p.power (1600 * (p.dischargeLimit : Int)) (1600 * (p.chargeLimit : Int))

/-- T_x7 (R107). -/
def Snapshot.scaled (p : Snapshot) (x : Axle) : Int := truncDiv (p.fitted x * p.factor) 32768

/-- The axle is constrained in this pass (R99, R107). -/
def Snapshot.constrained (p : Snapshot) (x : Axle) : Bool := decide (p.excess x ≠ 0) || decide (p.factor < 32768)

/-! ## Stage 7: rate limiting and the final clamp (R108, R109) -/

/-- A value lies between 0 and another, both included. -/
def between (t prev : Int) : Bool := decide ((0 ≤ t ∧ t ≤ prev) ∨ (prev ≤ t ∧ t ≤ 0))

/-- The rate-limited output (R108). -/
def rateLimit (constrained : Bool) (t prev up down : Int) : Int :=
  if constrained && between t prev then t
  else if prev < t then min t (prev + (if 0 ≤ prev then up else down))
  else if t < prev then max t (prev - (if prev ≤ 0 then up else down))
  else t

/-- The output of an axle (R108, R109). -/
def Snapshot.output (p : Snapshot) (x : Axle) : Int :=
  (p.window x).clamp
    (rateLimit (p.constrained x) (p.scaled x) (p.prev.get x) (p.image.rateUp p.mode) (p.image.rateDown p.mode))

/-- What a pass computes from its snapshot alone (R14, R110). -/
def Snapshot.compute (p : Snapshot) : PassResult where
  heldDemand := p.newHeld
  blendCount := p.blendCount
  baseShare := p.baseShare
  record :=
    { output := ⟨p.output .front, p.output .rear⟩,
      share := p.share,
      accepted := p.accepted,
      unserved := p.unserved,
      factor := p.factor,
      discharge := p.dischargeLimit }

/-- PASS_TIMER_EXPIRY: a pass begins (R13, R14). A stopped timer does not expire, and no expiry finds a pass in
progress (R13). -/
def execPassTimerExpiry (s : State) : Host.Outcome State Fault Refusal :=
  .next (
    if s.ae.passTimer = true ∧ s.ae.pass = none then
      { s with ae := { s.ae with pass := some ⟨s.snapshot, s.snapshot.compute⟩ } }
    else s)

/-! ## Completion (R8, R9, R15, R32 to R35, R110, R111) -/

/-- The ACTIVE entry condition of a snapshot (R8). -/
def Snapshot.entersActive (p : Snapshot) : Bool :=
  p.demand.freshness == .fresh && p.demand.driveEnable &&
    [Axle.front, Axle.rear].any (fun x =>
      (p.link.get x == .up || p.link.get x == .impaired) &&
        (p.inverter.get x == .ready || p.inverter.get x == .run || p.inverter.get x == .derate))

/-- The ACTIVE exit condition of a pass (R9). -/
def Pass.leavesActive (p : Pass) : Bool :=
  (!p.snapshot.demand.driveEnable || p.snapshot.demand.freshness == .lost) &&
    p.result.record.output == ⟨0, 0⟩

/-- The device state after a pass completes (R8, R9). -/
def Pass.nextDevice (p : Pass) (d : DeviceState) : DeviceState :=
  if p.snapshot.device = .standby ∧ p.snapshot.entersActive = true then .active
  else if p.snapshot.device = .active ∧ p.leavesActive = true then .standby
  else d

/-- The switch condition (R32). -/
def Pass.maySwitch (p : Pass) : Bool :=
  p.snapshot.device == .standby ||
    decide ((p.result.record.accepted.natAbs : Int) ≤ p.snapshot.image.switchThreshold p.snapshot.mode)

/-- The mode that the pass's completion compares with the current one: the record's request while it is FRESH (R32),
else the pending mode (R33). -/
def Pass.wantedMode (p : Pass) : Option Mode :=
  if p.snapshot.demand.freshness = .fresh then some p.snapshot.demand.mode else p.snapshot.pendingMode

/-- The blend state after the pass, before any mode switch: the increased count, or the end of the blend (R34). -/
def Pass.blendAfter (p : Pass) : Blend :=
  let b := p.snapshot.blend
  if b.active then
    if 250 ≤ p.result.blendCount then { b with active := false, count := 0 } else { b with count := p.result.blendCount }
  else b

/-- The DU at the completion of a pass: the held demand, and the mode, pending mode and blend (R27, R32 to R35). -/
def Pass.completeDemand (p : Pass) (u : DemandUnit) : DemandUnit :=
  let v := { u with heldDemand := p.result.heldDemand, blend := p.blendAfter }
  match p.wantedMode with
  | none => v
  | some m =>
    if m = p.snapshot.mode then { v with pendingMode := none }
    else if p.maySwitch then
      { v with mode := m, pendingMode := none, blend := ⟨true, p.result.baseShare, 0⟩ }
    else { v with pendingMode := some m }

/-- The shortfall count after the pass (R111). -/
def Pass.shortfallAfter (p : Pass) : Nat :=
  if p.snapshot.image.shortfallThreshold ≤ (p.result.record.unserved.natAbs : Int) then min (p.snapshot.shortfall + 1) 65535
  else 0

/-- The AE at the completion of a pass (R15, R110). -/
def Pass.completeEngine (p : Pass) (e : Engine) : Engine :=
  { e with prev := p.result.record.output, record := p.result.record, lastFactor := p.result.record.factor,
           shortfall := p.shortfallAfter, pass := none }

/-- The onset of POWER SCALED (R107). -/
def Pass.powerScaled (p : Pass) (e : Engine) : Bool :=
  decide (p.result.record.factor < 32768) && decide (e.lastFactor = 32768)

/-- The onset of SHORTFALL: the increase brings the count to 50 (R111). -/
def Pass.shortfallOnset (p : Pass) : Bool := decide (p.shortfallAfter = 50) && decide (p.snapshot.shortfall = 49)

/-- A pass completes and hands its results on (R15). -/
def State.completePass (s : State) (p : Pass) : State :=
  ({ s with
      osc := { s.osc with device := p.nextDevice s.osc.device },
      du := p.completeDemand s.du,
      ae := p.completeEngine s.ae }.raiseIf (p.powerScaled s.ae) .powerScaled).raiseIf p.shortfallOnset .shortfall

/-- PASS_COMPLETION (R15). Without a pass in progress there is none to complete. -/
def execPassCompletion (s : State) : Host.Outcome State Fault Refusal :=
  .next (
    match s.ae.pass with
    | none => s
    | some p => s.completePass p)

end Sys2Proof.Machine
end

