-- ==== Sys2Proof/Machine/Records.lean ====
section
/-! DEFINITION. The Demand, Load and Battery Limit Records: their frames and freshness timers (2.1, 2.2, 6.4). -/

namespace Sys2Proof.Machine

/-- The record after a demand frame's fields are taken (R17). -/
def DemandRecord.take (r : DemandRecord) (torque : BitVec 16) (modeCode flags : Byte) : DemandRecord :=
  { torque := clampInt (-24000) 24000 torque.toInt,
    mode := (modeOfCode modeCode.toNat).getD r.mode,
    driveEnable := driveEnableOf flags,
    regenPermitted := regenPermittedOf flags,
    freshness := .fresh }

/-- A demand frame is accepted: its fields are taken, the record is FRESH, the reference is its counter, the
bad-counter run is 0 and both timers restart (R17 to R21). -/
def State.acceptDemand (s : State) (torque : BitVec 16) (modeCode flags : Byte) (counter : Nat) : State :=
  { s with
    du := { s.du with demand := s.du.demand.take torque modeCode flags, counterRef := some counter, badRun := 0,
                      resynced := false },
    cp := { s.cp with timers := { s.cp.timers with demand30 := true, demand130 := true } } }

/-- The Demand Record becomes STALE, and DEMAND STALE latches (R18). -/
def State.demandGoesStale (s : State) : State :=
  { s with du := { s.du with demand := { s.du.demand with freshness := .stale } } }.raise .demandStale

/-- The Demand Record becomes LOST, and DEMAND LOST latches (R18); no frame has resynchronised it yet (R21). -/
def State.demandGoesLost (s : State) : State :=
  { s with du := { s.du with demand := { s.du.demand with freshness := .lost }, resynced := false } }.raise .demandLost

/-- A frame with a wrong counter in FRESH is discarded; the third in a row makes the record STALE (R19). -/
def State.wrongCounter (s : State) : State :=
  if 3 ≤ s.du.badRun + 1 then { s with du := { s.du with badRun := 0 } }.demandGoesStale
  else { s with du := { s.du with badRun := s.du.badRun + 1 } }

/-- A frame resynchronises a LOST record only: the reference becomes its counter (R21). -/
def State.resynchronise (s : State) (counter : Nat) : State :=
  { s with du := { s.du with counterRef := some counter, resynced := true } }

/-- The 30 ms expiry and the third wrong counter reach the record together, the expiry first: the frame finds the record
already STALE, is discarded as a wrong counter, and its count of 3 leaves a run of 0 (R19, R22 third case; log
entry 28). -/
def State.thirdWrongAfterExpiry (s : State) : State := { s with du := { s.du with badRun := 0 } }

/-- The DU takes a demand frame by its alive counter and the record's freshness (R19 to R21). In STALE any counter but
the reference is accepted (R20); R22 gives the third wrong counter that arrives together with the 30 ms expiry, and is
taken after it, another outcome. Which of the two a wrong counter in STALE with a run of 2 meets is the operand's to
say: this is the model's reading of the two rules (log entry 28). -/
def State.takeDemand (s : State) (torque : BitVec 16) (modeCode flags : Byte) (counter : Nat) (withExpiry : Bool) :
    State :=
  match s.du.counterRef with
  | none => s.acceptDemand torque modeCode flags counter
  | some ref =>
    if counter = ref then s
    else
      match s.du.demand.freshness with
      | .absent => s.acceptDemand torque modeCode flags counter
      | .stale =>
        if withExpiry = true ∧ s.du.badRun = 2 ∧ counter ≠ (ref + 1) % 16 then s.thirdWrongAfterExpiry
        else s.acceptDemand torque modeCode flags counter
      | .fresh =>
        if counter = (ref + 1) % 16 then s.acceptDemand torque modeCode flags counter else s.wrongCounter
      | .lost =>
        if s.du.resynced = true ∧ counter = (ref + 1) % 16 then s.acceptDemand torque modeCode flags counter
        else s.resynchronise counter

/-- DEMAND (R138, R139, R17 to R22). -/
def execDemand (src : Source) (torque : BitVec 16) (modeCode flags : Byte) (counter : DemandCounter) (s : State) :
    Host.Outcome State Fault Refusal :=
  .next (s.checkFrame src [.ds] (·.takeDemand torque modeCode flags (aliveCounter counter.byte) counter.withExpiry))

/-- The 30 ms timer of the Demand Record expires: a FRESH record becomes STALE (R18). A stopped timer does not expire
(R140). -/
def execDemandTimer30Ms (s : State) : Host.Outcome State Fault Refusal :=
  .next (
    if s.cp.timers.demand30 then
      let t := { s with cp := { s.cp with timers := { s.cp.timers with demand30 := false } } }
      if s.du.demand.freshness = .fresh then t.demandGoesStale else t
    else s)

/-- The 130 ms timer of the Demand Record expires: a STALE record becomes LOST (R18). -/
def execDemandTimer130Ms (s : State) : Host.Outcome State Fault Refusal :=
  .next (
    if s.cp.timers.demand130 then
      let t := { s with cp := { s.cp with timers := { s.cp.timers with demand130 := false } } }
      if s.du.demand.freshness = .stale then t.demandGoesLost else t
    else s)

/-- The Load Record takes a LOAD frame and its timer restarts (R24, R140). -/
def State.takeLoad (s : State) (tongue : BitVec 16) (flags : Byte) : State :=
  { s with
    du := { s.du with load := ⟨min tongue.toNat 2500, trailerPresentOf flags, .fresh⟩ },
    cp := { s.cp with timers := { s.cp.timers with load := true } } }

/-- LOAD (R138, R139, R24). -/
def execLoad (src : Source) (tongue : BitVec 16) (flags : Byte) (s : State) : Host.Outcome State Fault Refusal :=
  .next (s.checkFrame src [.tm] (·.takeLoad tongue flags))

/-- The 500 ms timer of the Load Record expires: the record becomes STALE; no event latches (R24). -/
def execLoadTimer (s : State) : Host.Outcome State Fault Refusal :=
  .next (
    if s.cp.timers.load then
      { s with
        du := { s.du with load := { s.du.load with freshness := .stale } },
        cp := { s.cp with timers := { s.cp.timers with load := false } } }
    else s)

/-- The Battery Limit Record takes a BATTERY LIMIT frame and its timer restarts (R103, R140). -/
def State.takeBatteryLimit (s : State) (discharge charge : BitVec 16) : State :=
  { s with
    ae := { s.ae with limits := ⟨min discharge.toNat 10000, min charge.toNat 10000, .fresh⟩ },
    cp := { s.cp with timers := { s.cp.timers with battery := true } } }

/-- BATTERY_LIMIT (R138, R139, R103). -/
def execBatteryLimit (src : Source) (discharge charge : BitVec 16) (s : State) : Host.Outcome State Fault Refusal :=
  .next (s.checkFrame src [.bm] (·.takeBatteryLimit discharge charge))

/-- The 100 ms timer of the Battery Limit Record expires: the record becomes STALE and LIMIT STALE latches (R103). -/
def execBatteryLimitTimer (s : State) : Host.Outcome State Fault Refusal :=
  .next (
    if s.cp.timers.battery then
      { s with
        ae := { s.ae with limits := { s.ae.limits with freshness := .stale } },
        cp := { s.cp with timers := { s.cp.timers with battery := false } } }.raise .limitStale
    else s)

end Sys2Proof.Machine
end

