-- ==== Sys2Proof/Config.lean ====
section
/-! DEFINITION. The open values of the manual. A constant here has no body: no proof can use a value of it. -/

namespace Sys2Proof

/-- FREE VALUE (log entry 3). The milliseconds that an entry's hold timer has left when READ ARBITER ENTRY is
executed: how much time has passed since the entry was created or refreshed is not held by a model without a clock.
Applied to the reading's number, and limited by R80 and R73 where it is used. -/
opaque Config.holdTimeLeft : Nat → Nat

end Sys2Proof
end

