-- ==== Sys2Proof/Machine/Intervention.lean ====
section
/-! DEFINITION. The Intervention Arbiter (chapter 4): requests, placement, preemption, updates, re-placement, release,
expiry, admission, clearing, and the answers of each. -/

namespace Sys2Proof.Machine

/-- The capacity of the Intervention Stack (R64). -/
abbrev stackCapacity : Nat := 4

/-- The capacity of the Pending List (R65). -/
abbrev waitingCapacity : Nat := 6

/-! ## Identities, levels and order -/

/-- The entry has the identity: source and tag (section 4.1). -/
def Entry.is (e : Entry) (src : Source) (tag : Byte) : Bool := e.source == src && e.tag == tag

/-- The first entry takes its place ahead of the second in the Pending List: lower level number, or equal levels and
earlier in arrival order (R65). -/
def Entry.ahead (a b : Entry) : Bool := decide (a.level < b.level ∨ (a.level = b.level ∧ a.order < b.order))

/-- Inserts an entry at the place its level and arrival order give it (R65). -/
def insertWaiting (e : Entry) : List Entry → List Entry
  | [] => [e]
  | x :: rest => if e.ahead x then e :: x :: rest else x :: insertWaiting e rest

/-- The first entry with an identity. -/
def findEntry (l : List Entry) (src : Source) (tag : Byte) : Option Entry := l.find? (·.is src tag)

/-- A list without the entries of an identity. -/
def dropEntry (l : List Entry) (src : Source) (tag : Byte) : List Entry := l.filter (fun e => !e.is src tag)

/-- The answer to an entry. -/
def Entry.answer (e : Entry) (code : AnswerCode) (place : Place) : Answer := ⟨e.source, e.tag, code, e.level, place⟩

/-- What a request, an expiry or a clearing comes to: the lists, the answers in the order of R78, and whether an entry
that was held has been lost, which latches INTERVENTION DROPPED. -/
structure Arbitration where
  ia : Arbiter
  answers : List Answer
  dropped : Bool
deriving DecidableEq, Repr

/-- The lists are set, the answers handed to the answer queue, the event raised (R78, R143, R149). -/
def State.arbitrate (s : State) (r : Arbitration) : State :=
  { s with ia := r.ia, cp := s.cp.addAnswers r.answers }.raiseIf r.dropped .interventionDropped

/-! ## Placement (R67 to R69) -/

/-- The Pending List after an entry seeks a place in it (R69): the list, whether the entry found a place, and the last
entry if it was pushed out. -/
def seekPlace (l : List Entry) (e : Entry) : List Entry × Bool × Option Entry :=
  if l.length < waitingCapacity then (insertWaiting e l, true, none)
  else
    match l.getLast? with
    | none => (l, false, none)
    | some last =>
      if e.level < last.level then (insertWaiting e l.dropLast, true, some last) else (l, false, none)

/-- The DROPPED answer to an entry pushed out of the Pending List. -/
def droppedAnswers : Option Entry → List Answer
  | none => []
  | some e => [e.answer .dropped .none]

/-- A level is better than that of the top of a stack, or the stack is empty (R67, R75). -/
def betterThanTop (level : Nat) : List Entry → Bool
  | [] => true
  | top :: _ => decide (level < top.level)

/-- A new entry takes the top of a full stack: the bottom entry is displaced and seeks a place in the Pending List
(R68). -/
def Arbiter.preempt (a : Arbiter) (e bottom : Entry) : Arbitration :=
  let (l, placed, out) := seekPlace a.waiting bottom
  { ia := { stack := e :: a.stack.dropLast, waiting := l, arrivals := a.arrivals + 1 },
    answers := e.answer .accepted .stack ::
      (if placed then bottom.answer .displaced .pending else bottom.answer .dropped .none) :: droppedAnswers out,
    dropped := !placed || out.isSome }

/-- A new entry seeks a place in the Pending List, or is refused and not created (R67, R69). -/
def Arbiter.queue (a : Arbiter) (e : Entry) : Arbitration :=
  let (l, placed, out) := seekPlace a.waiting e
  if placed then
    { ia := { a with waiting := l, arrivals := a.arrivals + 1 },
      answers := e.answer .pending .pending :: droppedAnswers out,
      dropped := out.isSome }
  else { ia := a, answers := [e.answer .refusedFull .none], dropped := false }

/-- A new request is placed (R67 to R69). -/
def Arbiter.place (a : Arbiter) (e : Entry) : Arbitration :=
  if betterThanTop e.level a.stack then
    if a.stack.length < stackCapacity then
      { ia := { a with stack := e :: a.stack, arrivals := a.arrivals + 1 },
        answers := [e.answer .accepted .stack], dropped := false }
    else
      match a.stack.getLast? with
      | some bottom => a.preempt e bottom
      | none => { ia := a, answers := [], dropped := false }
  else a.queue e

/-! ## Removal and admission (R72, R75) -/

/-- Admission: the first pending entry moves onto the stack while the stack has room and it is better than the top
(R75). The answers are the ACCEPTED ones of the entries admitted. -/
def admitFrom (stack : List Entry) : List Entry → List Entry × List Entry × List Answer
  | [] => (stack, [], [])
  | e :: rest =>
    if stack.length < stackCapacity ∧ betterThanTop e.level stack = true then
      let r := admitFrom (e :: stack) rest
      (r.1, r.2.1, e.answer .accepted .stack :: r.2.2)
    else (stack, e :: rest, [])

/-- The entry with the identity is the top of the stack. -/
def Arbiter.isTop (a : Arbiter) (src : Source) (tag : Byte) : Bool :=
  match a.stack with
  | [] => false
  | top :: _ => top.is src tag

/-- The entry with an identity is removed from the list that holds it; the removal of the top triggers admission
(R72, R73, R75). -/
def Arbiter.remove (a : Arbiter) (src : Source) (tag : Byte) : Arbiter × List Answer :=
  let b : Arbiter := { a with stack := dropEntry a.stack src tag, waiting := dropEntry a.waiting src tag }
  if a.isTop src tag then
    let (st, w, ans) := admitFrom b.stack b.waiting
    ({ b with stack := st, waiting := w }, ans)
  else (b, [])

/-- The entry with an identity, in either list (R66), with the place it has. -/
def Arbiter.find (a : Arbiter) (src : Source) (tag : Byte) : Option (Entry × Place) :=
  match findEntry a.stack src tag with
  | some e => some (e, .stack)
  | none => (findEntry a.waiting src tag).map (·, .pending)

/-! ## Requests (R62, R63, R66) -/

/-- The level range of a source: each bound clamped to 0..7, and the range of the source's role where the lower is
above the upper: 0..5 for SC and 4..7 for TM (R62). -/
def State.levelRange (s : State) (src : Source) : Nat × Nat :=
  let e := (s.chassis.getD .default).entry src
  let lo := min e.lower 7
  let hi := min e.upper 7
  if lo ≤ hi then (lo, hi) else if s.bound src .tm then (4, 7) else (0, 5)

/-- The level of a frame, clamped into the level range of its source (R62). -/
def State.levelOf (s : State) (src : Source) (f : InterventionFields) : Nat :=
  clampNat (s.levelRange src).1 (s.levelRange src).2 f.level.toNat

/-- The value of an entry of a kind (R63). -/
def InterventionKind.valueOf (k : InterventionKind) (f : InterventionFields) : Nat :=
  match k with
  | .axleCap => min f.value.toNat 12000
  | .totalCap => min f.value.toNat 12000
  | .shareHold => min f.value.toNat 1024
  | .regenCut => 0

/-- The axle of an entry of a kind (R63). -/
def InterventionKind.axleOf (k : InterventionKind) (f : InterventionFields) : AxleSelector :=
  match k with
  | .axleCap => interventionAxles f.axleByte
  | .regenCut => interventionAxles f.axleByte
  | .totalCap => .both
  | .shareHold => .both

/-- The NO TRANSFER flag of an entry of a kind (R63). -/
def InterventionKind.noTransferFlag (k : InterventionKind) (f : InterventionFields) : Bool :=
  match k with
  | .axleCap => noTransferOf f.axleByte
  | _ => false

/-- The hold time of a request, in ms (R63). -/
def holdOf (f : InterventionFields) : Nat := 10 * clampNat 1 50 f.hold.toNat

/-- The entry formed from a request (R63). -/
def Arbiter.entryOf (a : Arbiter) (src : Source) (k : InterventionKind) (level : Nat) (f : InterventionFields) : Entry :=
  { source := src, tag := f.tag, kind := k, level := level, axle := k.axleOf f, value := k.valueOf f,
    noTransfer := k.noTransferFlag f, hold := holdOf f, order := a.arrivals }

/-- An update in place of an entry: value, axle, NO TRANSFER flag and hold time (R70). -/
def Entry.update (e : Entry) (f : InterventionFields) : Entry :=
  { e with axle := e.kind.axleOf f, value := e.kind.valueOf f, noTransfer := e.kind.noTransferFlag f, hold := holdOf f }

/-- Every entry with an identity is updated in place; no other entry moves or changes (R70). -/
def updateEntries (l : List Entry) (src : Source) (f : InterventionFields) : List Entry :=
  l.map (fun e => if e.is src f.tag then e.update f else e)

/-- A request of one of the four kinds: a new request, an update in place or a re-placement (R66). -/
def Arbiter.request (a : Arbiter) (src : Source) (k : InterventionKind) (level : Nat) (f : InterventionFields) :
    Arbitration :=
  match a.find src f.tag with
  | none => a.place (a.entryOf src k level f)
  | some (e, where_) =>
    if e.kind = k ∧ e.level = level then
      { ia := { a with stack := updateEntries a.stack src f, waiting := updateEntries a.waiting src f },
        answers := [e.answer .updated where_], dropped := false }
    else
      let (b, admitted) := a.remove src f.tag
      let r := b.place (b.entryOf src k level f)
      { r with answers := admitted ++ r.answers }

/-- A release (R66, R72). -/
def Arbiter.release (a : Arbiter) (src : Source) (tag : Byte) : Arbitration :=
  match a.find src tag with
  | none => { ia := a, answers := [⟨src, tag, .notFound, 8, .none⟩], dropped := false }
  | some (e, _) =>
    let (b, admitted) := a.remove src tag
    { ia := b, answers := e.answer .released .none :: admitted, dropped := false }

/-- The hold time of an entry has run out (R73). An identity that neither list holds has no timer. -/
def Arbiter.expire (a : Arbiter) (src : Source) (tag : Byte) : Arbitration :=
  match a.find src tag with
  | none => { ia := a, answers := [], dropped := false }
  | some (e, _) =>
    let (b, admitted) := a.remove src tag
    { ia := b, answers := e.answer .expired .none :: admitted, dropped := true }

/-- The clearing of both lists on entry into SERVICE: CLEARED to each entry, stack entries from the top down, then the
pending ones (R76). -/
def Arbiter.clear (a : Arbiter) : Arbitration :=
  { ia := { a with stack := [], waiting := [] },
    answers := (a.stack ++ a.waiting).map (·.answer .cleared .none),
    dropped := false }

/-! ## Frames (R61) -/

/-- The IA takes an INTERVENTION frame in STANDBY and ACTIVE and answers it REFUSED WRONG STATE elsewhere (R61). -/
def State.takeIntervention (s : State) (src : Source) (f : InterventionFields) (handle : Arbiter → Nat → Arbitration) :
    State :=
  if s.osc.device = .standby ∨ s.osc.device = .active then s.arbitrate (handle s.ia (s.levelOf src f))
  else s.arbitrate ⟨s.ia, [⟨src, f.tag, .refusedWrongState, s.levelOf src f, .none⟩], false⟩

/-- The handling of an action code (R61, R66; codes of section 8.7.1). -/
def Arbiter.act (src : Source) (action : Byte) (f : InterventionFields) (a : Arbiter) (level : Nat) : Arbitration :=
  match action.toNat with
  | 0 => a.release src f.tag
  | 1 => a.request src .axleCap level f
  | 2 => a.request src .totalCap level f
  | 3 => a.request src .shareHold level f
  | 4 => a.request src .regenCut level f
  | _ => ⟨a, [⟨src, f.tag, .refusedBadKind, level, .none⟩], false⟩

/-- An INTERVENTION frame arrives (R138, R139, R61). -/
def State.intervention (s : State) (src : Source) (action : Byte) (f : InterventionFields) : State :=
  s.checkFrame src [.sc, .tm] (·.takeIntervention src f (Arbiter.act src action f))

/-- AXLE_CAP: action 1. -/
def execAxleCap (src : Source) (f : InterventionFields) (s : State) : Host.Outcome State Fault Refusal :=
  .next (s.intervention src 1#8 f)

/-- TOTAL_CAP: action 2. -/
def execTotalCap (src : Source) (f : InterventionFields) (s : State) : Host.Outcome State Fault Refusal :=
  .next (s.intervention src 2#8 f)

/-- SHARE_HOLD: action 3. -/
def execShareHold (src : Source) (f : InterventionFields) (s : State) : Host.Outcome State Fault Refusal :=
  .next (s.intervention src 3#8 f)

/-- REGEN_CUT: action 4. -/
def execRegenCut (src : Source) (f : InterventionFields) (s : State) : Host.Outcome State Fault Refusal :=
  .next (s.intervention src 4#8 f)

/-- RELEASE: action 0. -/
def execRelease (src : Source) (f : InterventionFields) (s : State) : Host.Outcome State Fault Refusal :=
  .next (s.intervention src 0#8 f)

/-- REFUSED_BAD_KIND: an action code of 5 to 255. -/
def execRefusedBadKind (src : Source) (action : Byte) (f : InterventionFields) (s : State) :
    Host.Outcome State Fault Refusal :=
  .next (s.intervention src action f)

/-- HOLD_EXPIRY (R73). -/
def execHoldExpiry (src : Source) (tag : Byte) (s : State) : Host.Outcome State Fault Refusal :=
  .next (s.arbitrate (s.ia.expire src tag))

end Sys2Proof.Machine
end

