-- ==== Sys2Proof/Machine/Links.lean ====
section
/-! DEFINITION. The Axle Link Controllers (chapter 7) and the Capability Unit's side of them (sections 5.1 and 5.2):
slots, command frames, report frames, link states, error counters, maintenance words, looped frames. -/

namespace Sys2Proof.Machine

/-! ## The check value (R117) -/

/-- One step of the CRC-8 register. -/
def crc8Step (r : Byte) : Byte := if r.getLsbD 7 then (r <<< 1) ^^^ 0x07#8 else r <<< 1

/-- One byte taken into the CRC-8 register. -/
def crc8Byte (r b : Byte) : Byte :=
  crc8Step (crc8Step (crc8Step (crc8Step (crc8Step (crc8Step (crc8Step (crc8Step (r ^^^ b))))))))

/-- The check value of a run of bytes. -/
def crc8 (bytes : List Byte) : Byte := bytes.foldl crc8Byte 0#8

/-- Bytes with their check value behind them. -/
def withCheck (body : List Byte) : List Byte := body ++ [crc8 body]

/-- The last byte of a frame is the check value of the bytes before it. -/
def checkOk (frame : List Byte) : Bool := frame.getLast? == some (crc8 frame.dropLast)

/-! ## Command frames (R125 to R127, section 8.7.5) -/

/-- The fields of a command frame. -/
structure CommandFrame where
  number : Nat
  maintenance : Bool
  enable : Bool
  regenPermitted : Bool
  test : Bool
  torque : BitVec 16
deriving DecidableEq, Repr

/-- The four bytes of a command frame (section 8.7.5). -/
def CommandFrame.bytes (f : CommandFrame) : List Byte :=
  withCheck
    [fieldBits (f.number % 8) 0 ||| flagBit f.maintenance 3 ||| flagBit f.enable 4 ||| flagBit f.regenPermitted 5
        ||| flagBit f.test 6,
      hiByte f.torque, loByte f.torque]

/-- The sent maintenance word of a superframe: device state code, and the loop request bit while the loopback is FAR
(R127). -/
def maintenanceWord (d : DeviceState) (loop : LoopState) : Byte :=
  fieldBits d.code 0 ||| flagBit (loop == .far) 3

/-- The command frames of a link carry its test count: in SERVICE with a loopback closed (R125). -/
def testing (d : DeviceState) (loop : LoopState) : Bool := d == .service && loop != .opened

/-- The torque field (R125). -/
def torqueField (d : DeviceState) (l : Link) (output : Int) : BitVec 16 :=
  if testing d l.loop then l.testCount else if d = .active then BitVec.ofInt 16 output else 0#16

/-- The command frame of the current slot, from the state that holds at its opening (R125). -/
def Link.command (l : Link) (d : DeviceState) (regen : Bool) (output : Int) : CommandFrame where
  number := l.position
  maintenance := l.sentWord.getLsbD l.position
  enable := d == .active
  regenPermitted := regen
  test := testing d l.loop
  torque := torqueField d l output

/-- At the opening of slot 0 the sent word is formed and the received bits are cleared (R127, R128). -/
def Link.beginSuperframe (l : Link) (d : DeviceState) : Link :=
  if l.position = 0 then { l with sentWord := maintenanceWord d l.loop, received := 0#8, complete := true } else l

/-- What the command line carries: the frame, or four bytes 0xFF in NEAR OPAQUE (R131). -/
def lineBytes (loop : LoopState) (frame : List Byte) : List Byte :=
  if loop = .nearOpaque then [0xFF#8, 0xFF#8, 0xFF#8, 0xFF#8] else frame

/-- The slot of number `position` opens at a controller: the command frame is built and sent, and the test count
advances if the frame carries it (R114, R125, R126). -/
def Link.openSlot (l : Link) (position : Nat) (d : DeviceState) (regen : Bool) (output : Int) : Link :=
  let m := { l with position := position }.beginSuperframe d
  let frame := (m.command d regen output).bytes
  { m with
    sentFrame := frame, line := lineBytes m.loop frame, slot := .waiting,
    testCount := if testing d m.loop then m.testCount + 1 else m.testCount }

/-! ## Slot results (R120, R121, R123, R128) -/

/-- The runs after a slot result (R120) and the near error counter (R123). -/
def Link.count (l : Link) (good : Bool) : Link :=
  if good then { l with goodRun := min (l.goodRun + 1) 255, badRun := 0, slot := .settled }
  else { l with badRun := min (l.badRun + 1) 255, goodRun := 0, nearErrors := min (l.nearErrors + 1) 255,
                slot := .settled }

/-- The link state after a slot result, from the runs as updated (R121). -/
def Link.nextState (l : Link) (good : Bool) : LinkState :=
  match l.state, good with
  | .off, _ => .off
  | .acquire, true => if 4 ≤ l.goodRun then .up else .acquire
  | .acquire, false => .acquire
  | .up, true => .up
  | .up, false => .impaired
  | .impaired, true => if 16 ≤ l.goodRun then .up else .impaired
  | .impaired, false => if 8 ≤ l.badRun then .lost else .impaired
  | .lost, true => .acquire
  | .lost, false => .lost

/-- The controller's side of an entry into LOST: the previous complete word is none, acknowledge verified is clear
(R122). -/
def Link.forget (l : Link) : Link := { l with prevWord := none, ackVerified := false }

/-- The received bits after a slot result (R128). -/
def Link.collect (l : Link) (good bit : Bool) : Link :=
  if good then { l with received := l.received ||| flagBit bit l.position } else { l with complete := false }

/-- The superframe is settled: the word verified, if any, and the previous complete word after it (R128). DEDUCED, unsafe (log
entry 34): all eight bits of a word take part in the comparison, bits 7..4 too, which section 8.7.5 shows as ignored and R148
does not read. -/
def Link.settle (l : Link) : Link × Option Byte :=
  if l.complete then
    ({ l with prevWord := some l.received }, if l.prevWord = some l.received then some l.received else none)
  else ({ l with prevWord := none }, none)

/-- The controller takes a slot result: runs, counters, link state, received bits, and at slot 7 the settlement of the
superframe. -/
def Link.result (l : Link) (good bit : Bool) : Link × Option Byte :=
  let c := l.count good
  let st := c.nextState good
  let d := { c with state := st }
  let e := if l.state ≠ .lost ∧ st = .lost then d.forget else d
  let f := e.collect good bit
  if l.position = 7 then f.settle else (f, none)

/-! ## The Capability Unit (R82 to R86) -/

/-- The capabilities after a good report frame in normal operation (R82, R83). -/
def AxleCapability.report (c : AxleCapability) (drive regen : Nat) : AxleCapability :=
  { c with drive := min (min drive 12000) c.prevDrive, prevDrive := min drive 12000,
           regen := min (min regen 12000) c.prevRegen, prevRegen := min regen 12000 }

/-- A verified word sets the inverter state record of an axle, and INVERTER FAULT latches on a change to FAULT
(R85, R86). -/
def State.setInverter (s : State) (x : Axle) (v : InverterState) : State :=
  let c := s.cu.get x
  let t := { s with cu := s.cu.set x { c with inverter := v } }
  t.raiseIf (c.inverter != .fault && v == .fault) .inverterFault

/-- A verified maintenance word is handed on by the loopback state (R129): bits 2..0 the inverter state code, bit 3 the
loop acknowledge. -/
def State.handWord (s : State) (x : Axle) (w : Byte) : State :=
  let l := s.links.get x
  match l.loop with
  | .opened =>
    { s with links := s.links.set x { l with ackVerified := false } }.setInverter x (inverterOfCode (w.toNat % 8))
  | .far =>
    { s with links := s.links.set x { l with ackVerified := w.getLsbD 3 } }.setInverter x
      (inverterOfCode (w.toNat % 8))
  | .nearTransparent => s
  | .nearOpaque => s

/-- A slot result of a link is taken (R120 to R123, R128, R129), with the effects of entries into IMPAIRED and LOST
(R122, R84). An entry into LOST clears the capabilities and the inverter state record in every loopback state, as R84
and R122 say of any entry; that R82 and R94 let these values hold while a loopback is closed is read as a rule about
the frames of a loopback and not about the loss of its link (log entry 29). -/
def State.slotResult (s : State) (x : Axle) (good bit : Bool) : State :=
  let l := s.links.get x
  let m := (l.result good bit).1
  let enterImpaired := l.state != .impaired && m.state == .impaired
  let enterLost := l.state != .lost && m.state == .lost
  let t := { s with links := s.links.set x m, cu := if enterLost then s.cu.set x .reset else s.cu }
  let u := (t.raiseIf enterImpaired (.linkImpaired x)).raiseIf enterLost (.linkLost x)
  match (l.result good bit).2 with
  | none => u
  | some w => u.handWord x w

/-! ## Report frames (R116, R118, R119) -/

/-- A report frame (section 8.7.5), of which the last byte is its check value. -/
structure ReportFrame where
  number : Nat
  maintenance : Bool
  farError : Bool
  speed : Int
  drive : BitVec 16
  regen : BitVec 16
  checked : Bool
deriving DecidableEq, Repr

/-- Byte n of a frame; 0 beyond its end. -/
def byteAt (frame : List Byte) (n : Nat) : Byte := frame.getD n 0#8

/-- A two-byte field of a frame, most significant byte first (R148). -/
def wordAt (frame : List Byte) (n : Nat) : BitVec 16 := byteAt frame n ++ byteAt frame (n + 1)

/-- The fields of the eight bytes of a report frame. -/
def readReport (frame : List Byte) : ReportFrame where
  number := (byteAt frame 0).toNat % 8
  maintenance := (byteAt frame 0).getLsbD 3
  farError := (byteAt frame 0).getLsbD 4
  speed := (wordAt frame 1).toInt
  drive := wordAt frame 3
  regen := wordAt frame 5
  checked := checkOk frame

/-- The torque field that the command frame of the current slot carried. -/
def Link.sentTorque (l : Link) : BitVec 16 := wordAt l.sentFrame 1

/-- A report frame is good (R118): the checks of OPEN, and in FAR with acknowledge verified the echoed torque. -/
def Link.goodReport (l : Link) (r : ReportFrame) : Bool :=
  r.checked && r.number == l.position && (l.loop != .far || !l.ackVerified || r.drive == l.sentTorque)

/-- A good report frame's contents are handed on (R119): its far-error flag to the far error counter (R123), and in
normal operation its speed and its capabilities. -/
def State.handReport (s : State) (x : Axle) (r : ReportFrame) : State :=
  let l := s.links.get x
  let far := if r.farError then min (l.farErrors + 1) 255 else l.farErrors
  match l.loop with
  | .opened =>
    { s with
      links := s.links.set x { l with farErrors := far, speed := r.speed },
      cu := s.cu.set x ((s.cu.get x).report r.drive.toNat r.regen.toNat) }.takeSample x r.speed
  | _ => { s with links := s.links.set x { l with farErrors := far } }

/-- The receiver of a link takes report frames: a slot awaits its result and no near loopback is closed (R116, R131). -/
def Link.takesReport (l : Link) : Bool :=
  l.slot == .waiting && (l.loop == .opened || l.loop == .far)

/-- REPORT_FRAME: eight bytes complete a frame (R116). The first of a slot is taken and judged; a later one, and one
with fewer bytes, is ignored. DEDUCED, unsafe (log entry 31): a frame that began in the slot before and completes in this
one is taken in this one, as R116 says of a late report, where R116 also says that a frame not complete at the end of a slot
is discarded. -/
def execReportFrame (x : Axle) (bytes : List Byte) (s : State) : Host.Outcome State Fault Refusal :=
  .next (
    let l := s.links.get x
    if l.takesReport = true ∧ 8 ≤ bytes.length then
      let r := readReport (bytes.take 8)
      if l.goodReport r then (s.handReport x r).slotResult x true r.maintenance else s.slotResult x false false
    else s)

/-! ## Slots (R114 to R116, R131) -/

/-- A slot in which a loopback transition was executed ends: it yields no result, and slot 7 settles the superframe,
which is incomplete (R128, R130). -/
def Link.endVoid (l : Link) : Link :=
  if l.position = 7 then { l.settle.1 with slot := .settled } else { l with slot := .settled }

/-- The slot of a link ends (R116): a missing frame is a bad result. -/
def State.endSlot (s : State) (x : Axle) : State :=
  match (s.links.get x).slot with
  | .waiting => s.slotResult x false false
  | .noResult => { s with links := s.links.set x (s.links.get x).endVoid }
  | .none => s
  | .settled => s

/-- SLOT_END (R116). -/
def execSlotEnd (x : Axle) (s : State) : Host.Outcome State Fault Refusal := .next (s.endSlot x)

/-- The four bytes of a loop error. -/
def errorBytes (e : BitVec 32) : List Byte :=
  [e.extractLsb' 24 8, e.extractLsb' 16 8, e.extractLsb' 8 8, e.extractLsb' 0 8]

/-- The command frame of the slot as it returns to the receiver in a near loopback. -/
def Link.looped (l : Link) (e : BitVec 32) : List Byte := List.zipWith (· ^^^ ·) l.sentFrame (errorBytes e)

/-- A looped frame is good (R118). -/
def Link.goodLoop (l : Link) (frame : List Byte) : Bool :=
  checkOk frame && (byteAt frame 0).toNat % 8 == l.position && wordAt frame 1 == l.sentTorque

/-- In a near loopback the receiver takes the slot's own command frame within the slot (R131). -/
def State.takeLooped (s : State) (x : Axle) (e : BitVec 32) : State :=
  let l := s.links.get x
  if l.loop = .nearTransparent ∨ l.loop = .nearOpaque then
    let frame := l.looped e
    if l.goodLoop frame then s.slotResult x true ((byteAt frame 0).getLsbD 3) else s.slotResult x false false
  else s

/-- The slot of a number opens on a link (R114, R115, R125, R131). -/
def State.openSlot (s : State) (x : Axle) (position : Nat) (e : BitVec 32) : State :=
  let l := (s.links.get x).openSlot position s.osc.device s.du.demand.regenPermitted (s.ae.record.output.get x)
  let t := { s with links := s.links.set x l }
  t.takeLooped x e

/-- The slot in progress on a link ends, and the next one opens (R114, R115). -/
def State.nextSlot (s : State) (x : Axle) (e : BitVec 32) : State :=
  if (s.links.get x).slot = .none then s
  else (s.endSlot x).openSlot x (((s.links.get x).position + 1) % 8) e

/-- SLOT_OPENING: the next slot opens on both links at the same moment (R114, R115). -/
def execSlotOpening (frontError rearError : BitVec 32) (s : State) : Host.Outcome State Fault Refusal :=
  .next ((s.nextSlot .front frontError).nextSlot .rear rearError)

end Sys2Proof.Machine
end

