-- ==== Sys2Proof/Machine/Service.lean ====
section
/-! DEFINITION. The Service Unit (section 10.1): arrivals, beginning a request and its checks, and the services that
act outside the Calibration Store. -/

namespace Sys2Proof.Machine

/-! ## Arrivals (R154) -/

/-- The SU takes an arriving request: queued, answered BUSY, or discarded (R154). -/
def ServiceUnit.arrive (u : ServiceUnit) (r : Request) : ServiceUnit :=
  if u.queue.length < serviceCapacity then { u with queue := u.queue ++ [r] }
  else if 0 < u.room then { u with responses := u.responses ++ [r.response .busy []] }
  else u

/-- SERVICE_REQUEST (R138, R139, R154). A frame with other than seven parameter bytes has a wrong length, and the port
rejects it (R138). -/
def execServiceRequest (src : Source) (code : Byte) (params : List Byte) (s : State) :
    Host.Outcome State Fault Refusal :=
  .next (s.checkFrame src [.st] (fun t =>
    if params.length = 7 then { t with su := t.su.arrive ⟨src, code, params⟩ } else t.raise .frameRejected))

/-! ## Beginning a request (R154, R155) -/

/-- Parameter byte n, 1 to 7, of a request. -/
def Request.param (r : Request) (n : Nat) : Byte := r.params.getD (n - 1) 0#8

/-- The SU begins the request at the head of its queue, if that request is of the service and R154 lets it begin. -/
def State.beginService (s : State) (v : Service) (run : Request → State) : State :=
  match s.dueRequest with
  | none => s
  | some r => if r.code = v.code then run r else s

/-- UNKNOWN_SERVICE: the request at the head of the queue has an unlisted code; it completes at once (R155). -/
def execUnknownService (s : State) : Host.Outcome State Fault Refusal :=
  .next (
    match s.dueRequest with
    | none => s
    | some r => if serviceListed r.code then s else s.respond r .unknownService [])

/-! ## ENTER SERVICE and LEAVE SERVICE (R10, R11) -/

/-- The AE when the device enters SERVICE: the pass timer stops, a pass in progress is abandoned, the previous outputs,
both outputs of the record and the shortfall count are 0 (R10). -/
def Engine.enterService (e : Engine) : Engine :=
  { e with passTimer := false, pass := none, prev := ⟨0, 0⟩, record := { e.record with output := ⟨0, 0⟩ },
           shortfall := 0 }

/-- The device enters SERVICE (R10, R76). -/
def State.enterService (s : State) : State :=
  { s with osc := { s.osc with device := .service }, ae := s.ae.enterService }.arbitrate s.ia.clear

/-- ENTER_SERVICE (R10, R155, R156). -/
def execEnterService (s : State) : Host.Outcome State Fault Refusal :=
  .next (s.beginService .enterService (fun r =>
    if s.osc.device = .standby ∨ s.osc.device = .safeHold then s.enterService.respond r .done []
    else s.respond r .wrongState []))

/-- LEAVE_SERVICE: an image check begins; the request is in execution until it completes (R11). -/
def execLeaveService (s : State) : Host.Outcome State Fault Refusal :=
  .next (s.beginService .leaveService (fun r =>
    if s.osc.device = .service then s.execute .imageCheck else s.respond r .wrongState []))

/-- The device leaves SERVICE: the calibration and the chassis configuration in force are set, all loopbacks are
opened, and the outcome of the check decides the state (R7, R11, R133). -/
def State.leaveService (s : State) (r : Request) : State :=
  let t := s.adoptImage
  let u := { t with links := ⟨t.links.front.openLoop, t.links.rear.openLoop⟩ }
  if s.store.image.valid then
    { u with osc := { u.osc with device := .standby }, ae := { u.ae with passTimer := true } }.respond r .done []
  else { u with osc := { u.osc with device := .safeHold } }.respond r .imageInvalid []

/-- The request in execution. -/
def ServiceUnit.executing (u : ServiceUnit) (op : Operation) : Option Request :=
  if u.operation = some op then u.queue.head? else none

/-- LEAVE_SERVICE_COMPLETION (R11). -/
def execLeaveServiceCompletion (s : State) : Host.Outcome State Fault Refusal :=
  .next (
    match s.su.executing .imageCheck with
    | none => s
    | some r => s.leaveService r)

/-! ## READ LINK COUNTERS and SET LOOPBACK (R124, R130) -/

/-- The payload of READ LINK COUNTERS (section 8.7.4). -/
def Link.counterPayload (l : Link) : List Byte :=
  [BitVec.ofNat 8 l.nearErrors, BitVec.ofNat 8 l.farErrors, BitVec.ofNat 8 l.loop.code, flagBit l.ackVerified 0]

/-- READ_LINK_COUNTERS (R124, R155, R156). -/
def execReadLinkCounters (s : State) : Host.Outcome State Fault Refusal :=
  .next (s.beginService .readLinkCounters (fun r =>
    match serviceAxle (r.param 1).toNat with
    | none => s.respond r .badAddress []
    | some x =>
      let l := s.links.get x
      { s with links := s.links.set x { l with nearErrors := 0, farErrors := 0 } }.respond r .done l.counterPayload))

/-- SET_LOOPBACK (R130, R155, R156). -/
def execSetLoopback (s : State) : Host.Outcome State Fault Refusal :=
  .next (s.beginService .setLoopback (fun r =>
    if s.osc.device = .service then
      match serviceAxle (r.param 1).toNat, loopOfCode (r.param 2).toNat with
      | some x, some k =>
        { s with links := s.links.set x ((s.links.get x).transition k) }.respond r .done []
      | _, _ => s.respond r .badAddress []
    else s.respond r .wrongState []))

/-! ## READ ARBITER ENTRY, READ IDENTITY, RESTART (R80, R156, R157) -/

/-- The hold time remaining that a reading returns: an open value from 1 ms to the entry's hold time (R73, R80; log
entry 3). -/
def holdLeft (reading hold : Nat) : Nat := max 1 (min (Config.holdTimeLeft reading) hold)

/-- The payload for an entry with a hold time remaining (section 8.7.4). -/
def Entry.payload (e : Entry) (left : Nat) : List Byte :=
  [fieldBits e.source.val 5 ||| fieldBits e.level 2 ||| fieldBits e.axle.code 0, e.tag,
   fieldBits e.kind.code 5 ||| flagBit e.noTransfer 4 ||| fieldBits (left / 256 % 2) 0]
    ++ unsignedBytes e.value ++ [BitVec.ofNat 8 left]

/-- The list READ ARBITER ENTRY names and its highest index; none for a list value not listed (R80). -/
def Arbiter.listOf (a : Arbiter) : Nat → Option (List Entry × Nat)
  | 0 => some (a.stack, 3)
  | 1 => some (a.waiting, 5)
  | _ => none

/-- READ_ARBITER_ENTRY (R80, R155, R156). -/
def execReadArbiterEntry (s : State) : Host.Outcome State Fault Refusal :=
  .next (s.beginService .readArbiterEntry (fun r =>
    match s.ia.listOf (r.param 1).toNat with
    | none => s.respond r .badAddress []
    | some (l, highest) =>
      if highest < (r.param 2).toNat then s.respond r .badAddress []
      else
        match l[(r.param 2).toNat]? with
        | none => s.respond r .done []
        | some e =>
          { s with reading := s.reading + 1 }.respond r .done (e.payload (holdLeft s.reading e.hold))))

/-- READ_IDENTITY: the image version of the last completed image check, and the reset cause (R3, R156). -/
def execReadIdentity (s : State) : Host.Outcome State Fault Refusal :=
  .next (s.beginService .readIdentity (fun r =>
    s.respond r .done (unsignedBytes s.calibration.version ++ [BitVec.ofNat 8 (resetCauseCode s.osc.cause)])))

/-- RESTART: the DONE response is placed and restart pending is set (R157). -/
def execRestart (s : State) : Host.Outcome State Fault Refusal :=
  .next (s.beginService .restart (fun r =>
    { s with su := { s.su.complete r .done [] with restartPending := true } }))

end Sys2Proof.Machine
end

