-- ==== Sys2Proof/Machine/Port.lean ====
section
/-! DEFINITION. The Chassis Port (chapter 8): status frames, transmission, the received frames it rejects, and EVENT
CONTROL frames (chapter 9). -/

namespace Sys2Proof.Machine

/-! ## EVENT CONTROL (R150) -/

/-- SET_MASK (R138, R139, R150). -/
def execSetMask (src : Source) (events : BitVec 16) (s : State) : Host.Outcome State Fault Refusal :=
  .next (s.checkFrame src [.ds] (fun t => { t with eu := t.eu.setMask events }))

/-- ACKNOWLEDGE (R138, R139, R150). -/
def execAcknowledge (src : Source) (events : BitVec 16) (s : State) : Host.Outcome State Fault Refusal :=
  .next (s.checkFrame src [.ds] (fun t => { t with eu := t.eu.acknowledge events }))

/-- An EVENT CONTROL frame of any operation code (R150). -/
def EventUnit.control (u : EventUnit) (op : Byte) (events : BitVec 16) : EventUnit :=
  match op.toNat with
  | 1 => u.setMask events
  | 2 => u.acknowledge events
  | _ => u

/-- EVENT_CONTROL_OTHER_OPERATION: neither set changes and no event is raised (R150). -/
def execEventControlOtherOperation (src : Source) (op : Byte) (events : BitVec 16) (s : State) :
    Host.Outcome State Fault Refusal :=
  .next (s.checkFrame src [.ds] (fun t => { t with eu := t.eu.control op events }))

/-! ## Status frames (R141, R142, section 8.7.2) -/

/-- STATUS A. -/
def State.statusA (s : State) : List Byte :=
  signedBytes s.ae.record.output.front ++ signedBytes s.ae.record.output.rear ++ signedBytes s.ae.record.unserved ++
    [fieldBits s.osc.device.code 0 ||| fieldBits s.du.mode.code 3 ||| flagBit s.du.pendingMode.isSome 5
        ||| flagBit s.du.blend.active 6,
     0#8]

/-- The level of the top of the stack, 8 for an empty stack (R80). -/
def Arbiter.topLevel (a : Arbiter) : Nat :=
  match a.stack with
  | [] => 8
  | top :: _ => top.level

/-- An axle's byte of STATUS B: displayed state, override flag, automatic state (R54). -/
def SlipAxle.statusByte (a : SlipAxle) : Byte :=
  fieldBits a.displayed.code 0 ||| flagBit a.override.isSome 2 ||| fieldBits a.auto.code 3

/-- STATUS B. -/
def State.statusB (s : State) : List Byte :=
  signedBytes s.ae.record.share ++
    [fieldBits s.ia.stack.length 4 ||| fieldBits s.ia.topLevel 0,
     fieldBits s.ia.waiting.length 4,
     fieldBits s.links.front.state.code 4 ||| fieldBits s.links.rear.state.code 0,
     fieldBits s.cu.front.inverter.code 4 ||| fieldBits s.cu.rear.inverter.code 0,
     s.se.axle.front.statusByte, s.se.axle.rear.statusByte]

/-- STATUS C (R151). -/
def State.statusC (s : State) : List Byte :=
  [hiByte s.eu.visible, loByte s.eu.visible] ++ signedBytes s.ae.record.accepted ++ unsignedBytes s.ae.record.discharge ++
    signedBytes s.ae.record.factor

/-- The frame in transmission comes from an origin. -/
def Port.sending (p : Port) (o : TxOrigin) : Bool :=
  match p.transmission with
  | some t => t.origin == o
  | none => false

/-- A newly built frame is placed in its transmit slot: behind a frame in transmission, else in place of whatever the
slot holds (R142). -/
def TxSlot.put (t : TxSlot) (onBus : Bool) (frame : List Byte) : TxSlot :=
  if onBus then { t with behind := some frame } else ⟨some frame, none⟩

/-- STATUS_TIMER_EXPIRY: the three frames of one moment (R141, R142). -/
def execStatusTimerExpiry (s : State) : Host.Outcome State Fault Refusal :=
  .next (
    if s.cp.statusTimer then
      { s with cp := { s.cp with
          slotA := s.cp.slotA.put (s.cp.sending .slotA) s.statusA,
          slotB := s.cp.slotB.put (s.cp.sending .slotB) s.statusB,
          slotC := s.cp.slotC.put (s.cp.sending .slotC) s.statusC } }
    else s)

/-! ## Transmission (R143 to R146) -/

/-- The four bytes of an INTERVENTION ANSWER (section 8.7.2). -/
def Answer.bytes (a : Answer) : List Byte := [a.tag, a.code.code, BitVec.ofNat 8 a.level, a.place.code]

/-- The eight bytes of a SERVICE RESPONSE (section 8.7.2). -/
def Response.bytes (r : Response) : List Byte := [r.code, r.result.code] ++ r.payload

/-- The identifier of a frame of a kind and source number (section 8.1). -/
def ChassisConfig.identifier (c : ChassisConfig) (kind : Nat) (src : Source) : Nat := c.base + 8 * kind + src.val

/-- The candidates for transmission (R145). -/
def Port.candidates (p : Port) (c : ChassisConfig) (responses : List Response) : List Transmission :=
  (p.slotA.frame.map (fun d => ⟨.slotA, c.identifier 8 c.own, d⟩)).toList ++
  (p.slotB.frame.map (fun d => ⟨.slotB, c.identifier 9 c.own, d⟩)).toList ++
  (p.slotC.frame.map (fun d => ⟨.slotC, c.identifier 10 c.own, d⟩)).toList ++
  (p.answers.head?.map (fun a => ⟨.answer, c.identifier 11 a.dest, a.bytes⟩)).toList ++
  (responses.head?.map (fun r => ⟨.response, c.identifier 12 r.dest, r.bytes⟩)).toList

/-- The candidate with the lowest identifier. -/
def lowestIdent : List Transmission → Option Transmission
  | [] => none
  | t :: rest =>
    match lowestIdent rest with
    | none => some t
    | some u => if u.ident < t.ident then some u else some t

/-- FRAME_OFFER: while the port is ON and no transmission is under way, the candidate with the lowest identifier is
offered (R145). -/
def execFrameOffer (s : State) : Host.Outcome State Fault Refusal :=
  .next (
    match s.chassis, s.cp.transmission with
    | some c, none =>
      if s.portTakes then { s with cp := { s.cp with transmission := lowestIdent (s.cp.candidates c s.su.responses) } }
      else s
    | _, _ => s)

/-- The slot after the transmission of its frame has succeeded: empty, or with the newer frame (R142). -/
def TxSlot.sent (t : TxSlot) : TxSlot := ⟨t.behind, none⟩

/-- The slot after its frame's transmission has ended without success: the newer frame takes it (R142). -/
def TxSlot.notSent (t : TxSlot) : TxSlot :=
  match t.behind with
  | none => t
  | some f => ⟨some f, none⟩

/-- The port after the frame of an origin has been transmitted (R142, R143). -/
def Port.sentFrom (p : Port) : TxOrigin → Port
  | .slotA => { p with slotA := p.slotA.sent }
  | .slotB => { p with slotB := p.slotB.sent }
  | .slotC => { p with slotC := p.slotC.sent }
  | .answer => { p with answers := p.answers.tail }
  | .response => p

/-- The port after the frame of an origin has not been transmitted (R142). -/
def Port.notSentFrom (p : Port) : TxOrigin → Port
  | .slotA => { p with slotA := p.slotA.notSent }
  | .slotB => { p with slotB := p.slotB.notSent }
  | .slotC => { p with slotC := p.slotC.notSent }
  | .answer => p
  | .response => p

/-- A response is the DONE response of a RESTART (R157). -/
def Response.restartDone (r : Response) : Bool := r.code == Service.restart.code && r.result == .done

/-- The head of the response queue has been transmitted and is removed; the DONE response of a RESTART begins the
RESTART reset (R144, R157, R2). -/
def State.responseSent (s : State) : State :=
  let t := { s with su := { s.su with responses := s.su.responses.tail } }
  match s.su.responses with
  | [] => t
  | r :: _ => if r.restartDone then t.beginReset .restart else t

/-- TRANSMISSION_SUCCESS (R142 to R145). -/
def execTransmissionSuccess (s : State) : Host.Outcome State Fault Refusal :=
  .next (
    match s.cp.transmission with
    | none => s
    | some t =>
      let p := { s.cp with transmission := none, errorCount := s.cp.errorCount - 1 }
      let u := { s with cp := p.sentFrom t.origin }
      if t.origin = .response then u.responseSent else u)

/-- The transmit error count after a failure; above 255 the port enters SILENT with a count of 0 (R145, R146). -/
def Port.countFailure (p : Port) : Port :=
  if 255 < p.errorCount + 8 then { p with state := .silent, errorCount := 0 }
  else { p with errorCount := p.errorCount + 8 }

/-- TRANSMISSION_FAILURE (R142, R143, R145, R146). -/
def execTransmissionFailure (s : State) : Host.Outcome State Fault Refusal :=
  .next (
    match s.cp.transmission with
    | none => s
    | some t => { s with cp := ({ s.cp with transmission := none }.notSentFrom t.origin).countFailure })

/-- ARBITRATION_LOSS: the frame stays a candidate and no failure is counted (R145). -/
def execArbitrationLoss (s : State) : Host.Outcome State Fault Refusal :=
  .next (
    match s.cp.transmission with
    | none => s
    | some t => { s with cp := { s.cp with transmission := none }.notSentFrom t.origin })

/-- SILENT_END: the port returns to ON with a transmit error count of 0 (R146). -/
def execSilentEnd (s : State) : Host.Outcome State Fault Refusal :=
  .next (if s.cp.state = .silent then { s with cp := { s.cp with state := .on, errorCount := 0 } } else s)

/-! ## Received frames (R136 to R139) -/

/-- The roles that may send a kind of frame (R138). -/
def kindRoles : Nat → List Role
  | 0 => [.ds]
  | 1 => [.sc]
  | 2 => [.bm]
  | 3 => [.tm]
  | 4 => [.sc, .tm]
  | 5 => [.sc]
  | 6 => [.ds]
  | 7 => [.st]
  | _ => []

/-- What the port makes of a received frame. -/
inductive Verdict where
  | ignored
  | rejected
  | handed (c : Instr)
deriving DecidableEq, Repr

/-- The port's verdict on a received frame: ignored (R136), rejected (R138), or handed to its owner (R139) as the
command that its kind and bytes spell. Its length is its data length code, 9 to 15 meaning 8. -/
def State.verdict (s : State) (f : CanFrame) : Verdict :=
  match s.chassis with
  | none => .ignored
  | some c =>
    if !s.portTakes || f.extended || f.remote || decide (f.ident < c.base) || decide (c.base + 127 < f.ident) then .ignored
    else
      let kind := (f.ident - c.base) / 8
      let src := sourceOf (f.ident - c.base)
      if (kindRoles kind).any (s.bound src) then
        match decodeFrame kind src (f.data.take (min f.dlc 8)) with
        | some i => .handed i
        | none => .rejected
      else .rejected

/-- The owner takes a frame that passed the checks, each kind under its own rules (R139). Only the commands that frames
spell reach this. -/
def deliver (c : Instr) (s : State) : Host.Outcome State Fault Refusal :=
  match c with
  | .demand src t m f k => execDemand src t m f k s
  | .reference src a b => execReference src a b s
  | .batteryLimit src a b => execBatteryLimit src a b s
  | .load src t f => execLoad src t f s
  | .slipOverride src a b => execSlipOverride src a b s
  | .axleCap src f => execAxleCap src f s
  | .totalCap src f => execTotalCap src f s
  | .shareHold src f => execShareHold src f s
  | .regenCut src f => execRegenCut src f s
  | .release src f => execRelease src f s
  | .refusedBadKind src a f => execRefusedBadKind src a f s
  | .setMask src e => execSetMask src e s
  | .acknowledge src e => execAcknowledge src e s
  | .eventControlOtherOperation src o e => execEventControlOtherOperation src o e s
  | .serviceRequest src k p => execServiceRequest src k p s
  | _ => .next s

/-- FRAME_REJECTED: a frame arrives at the port. One that the checks discard latches FRAME REJECTED (R138); one that is
not taken into them has no effect (R136); one that passes them is none of this row's, and is handed on (R139). -/
def execFrameRejected (f : CanFrame) (s : State) : Host.Outcome State Fault Refusal :=
  match s.verdict f with
  | .ignored => .next s
  | .rejected => .next (s.raise .frameRejected)
  | .handed c => deliver c s

end Sys2Proof.Machine
end

