-- ==== Sys2Proof/Machine/Resets.lean ====
section
/-! DEFINITION. Resets and INIT (sections 1.2 and 1.3). -/

namespace Sys2Proof.Machine

/-- POWER_RESET (R2, R3). -/
def execPowerReset (s : State) : Host.Outcome State Fault Refusal := .next (s.beginReset .power)

/-- PIN_RESET (R2, R3). -/
def execPinReset (s : State) : Host.Outcome State Fault Refusal := .next (s.beginReset .pin)

/-- RESET_RELEASE: a reset condition ends (R2, R5). -/
def execResetRelease (kind : ResetKind) (s : State) : Host.Outcome State Fault Refusal := .next (s.endReset kind)

/-- A link at the end of INIT: it enters ACQUIRE with both runs 0 (R6, R120). -/
def Link.acquire (l : Link) : Link := { l with state := .acquire, goodRun := 0, badRun := 0 }

/-- The device at the end of INIT, by the outcome of the image check, with its timers (R6, R13, R141). -/
def State.leaveInit (s : State) : State :=
  let ok := s.store.image.valid
  let t := s.adoptImage
  { t with
    osc := { t.osc with device := if ok then .standby else .safeHold, checking := false },
    ae := { t.ae with passTimer := ok },
    cp := { t.cp with statusTimer := true },
    links := ⟨t.links.front.acquire, t.links.rear.acquire⟩ }

/-- IMAGE_CHECK_OF_INIT: the image check of INIT completes (R6), and the first slot opens on both links (R114). -/
def execImageCheckOfInit (s : State) : Host.Outcome State Fault Refusal :=
  .next (
    if s.osc.checking then (s.leaveInit.openSlot .front 0 0#32).openSlot .rear 0 0#32 else s)

end Sys2Proof.Machine
end

