-- ==== Sys2Proof/Machine/StoreServices.lean ====
section
/-! DEFINITION. The services of the Calibration Store (section 10.2). -/

namespace Sys2Proof.Machine

/-- Bits 7..4 of parameter byte 1: the sector (section 8.7.4). -/
def Request.sector (r : Request) : Nat := (r.param 1).toNat / 16

/-- Bits 3..0 of parameter byte 1: the count (section 8.7.4). -/
def Request.count (r : Request) : Nat := (r.param 1).toNat % 16

/-- Parameter byte 2: the offset. -/
def Request.offset (r : Request) : Nat := (r.param 2).toNat

/-- The data bytes of a write: the first count of parameter bytes 3 to 6 (R159). -/
def Request.data (r : Request) : List Byte := [r.param 3, r.param 4, r.param 5, r.param 6].take r.count

/-- Sector 0..3, count 1..4, offset plus count at most 256 (R158, R159). -/
def Request.inRange (r : Request) : Bool :=
  decide (r.sector ≤ 3) && decide (1 ≤ r.count) && decide (r.count ≤ 4) && decide (r.offset + r.count ≤ 256)

/-- The bytes of the store from an offset of a sector upward (R158). -/
def Store.read (c : Store) (sector offset count : Nat) : List Byte :=
  (List.range count).map (fun k => c.byte sector (offset + k))

/-- READ_CAL (R155, R158). -/
def execReadCal (s : State) : Host.Outcome State Fault Refusal :=
  .next (s.beginService .readCal (fun r =>
    if r.inRange then
      if s.store.sectors.get r.sector = .damaged then s.respond r .damaged []
      else s.respond r .done (s.store.read r.sector r.offset r.count)
    else s.respond r .badAddress []))

/-- WRITE_CAL: the checks in their order, and then the write begins (R155, R159). -/
def execWriteCal (s : State) : Host.Outcome State Fault Refusal :=
  .next (s.beginService .writeCal (fun r =>
    if s.osc.device ≠ .service then s.respond r .wrongState []
    else if !r.inRange then s.respond r .badAddress []
    else if s.store.locked then s.respond r .locked []
    else if s.store.sectors.get r.sector = .damaged then s.respond r .damaged []
    else if (s.store.read r.sector r.offset r.count).all (· == erasedByte) then
      s.execute (.write r.sector r.offset r.data)
    else s.respond r .notErased []))

/-- WRITE_CAL_COMPLETION: the data bytes stand, the sector is PROGRAMMED, DONE is placed (R159). -/
def execWriteCalCompletion (s : State) : Host.Outcome State Fault Refusal :=
  .next (
    match s.su.operation, s.su.queue.head? with
    | some (.write sector offset data), some r =>
      { s with store := s.store.endWrite sector offset data }.respond r .done []
    | _, _ => s)

/-- ERASE_SECTOR (R155, R160). -/
def execEraseSector (s : State) : Host.Outcome State Fault Refusal :=
  .next (s.beginService .eraseSector (fun r =>
    if s.osc.device ≠ .service then s.respond r .wrongState []
    else if 3 < r.sector then s.respond r .badAddress []
    else if s.store.locked then s.respond r .locked []
    else s.execute (.erase r.sector)))

/-- ERASE_SECTOR_COMPLETION (R160). -/
def execEraseSectorCompletion (allErased : Bool) (s : State) : Host.Outcome State Fault Refusal :=
  .next (
    match s.su.operation, s.su.queue.head? with
    | some (.erase sector), some r =>
      { s with store := s.store.endErase sector allErased }.respond r (if allErased then .done else .eraseFailed) []
    | _, _ => s)

/-- BULK_ERASE: the lock cell is cleared when it begins (R155, R161). -/
def execBulkErase (s : State) : Host.Outcome State Fault Refusal :=
  .next (s.beginService .bulkErase (fun r =>
    if s.osc.device ≠ .service then s.respond r .wrongState []
    else { s with store := { s.store with locked := false } }.execute .bulkErase))

/-- BULK_ERASE_COMPLETION (R161). -/
def execBulkEraseCompletion (e0 e1 e2 e3 : Bool) (s : State) : Host.Outcome State Fault Refusal :=
  .next (
    match s.su.executing .bulkErase with
    | none => s
    | some r =>
      { s with store := s.store.endBulkErase e0 e1 e2 e3 }.respond r
        (if e0 && e1 && e2 && e3 then .done else .eraseFailed) [])

/-- LOCK_STORE (R155, R162). -/
def execLockStore (s : State) : Host.Outcome State Fault Refusal :=
  .next (s.beginService .lockStore (fun r =>
    if s.osc.device ≠ .service then s.respond r .wrongState [] else s.execute .lock))

/-- LOCK_STORE_COMPLETION: the lock cell is set and DONE is placed (R162). -/
def execLockStoreCompletion (s : State) : Host.Outcome State Fault Refusal :=
  .next (
    match s.su.executing .lock with
    | none => s
    | some r => { s with store := { s.store with locked := true } }.respond r .done [])

end Sys2Proof.Machine
end

