-- ==== Sys2Proof/Machine/Dispatch.lean ====
section
/-! DEFINITION. exec: one arm for each command, each one call of its meaning. -/

namespace Sys2Proof.Machine

def exec (i : Instr) (s : State) : Host.Outcome State Fault Refusal :=
  match i with
  | .powerReset => Sys2Proof.Machine.execPowerReset s
  | .pinReset => Sys2Proof.Machine.execPinReset s
  | .resetRelease kind => Sys2Proof.Machine.execResetRelease kind s
  | .imageCheckOfInit => Sys2Proof.Machine.execImageCheckOfInit s
  | .passTimerExpiry => Sys2Proof.Machine.execPassTimerExpiry s
  | .passCompletion => Sys2Proof.Machine.execPassCompletion s
  | .demand src torque modeCode flags counter => Sys2Proof.Machine.execDemand src torque modeCode flags counter s
  | .demandTimer30Ms => Sys2Proof.Machine.execDemandTimer30Ms s
  | .demandTimer130Ms => Sys2Proof.Machine.execDemandTimer130Ms s
  | .load src tongue flags => Sys2Proof.Machine.execLoad src tongue flags s
  | .loadTimer => Sys2Proof.Machine.execLoadTimer s
  | .reference src front rear => Sys2Proof.Machine.execReference src front rear s
  | .referenceTimer => Sys2Proof.Machine.execReferenceTimer s
  | .batteryLimit src discharge charge => Sys2Proof.Machine.execBatteryLimit src discharge charge s
  | .batteryLimitTimer => Sys2Proof.Machine.execBatteryLimitTimer s
  | .slipOverride src axleCode overrideCode => Sys2Proof.Machine.execSlipOverride src axleCode overrideCode s
  | .axleCap src fields => Sys2Proof.Machine.execAxleCap src fields s
  | .totalCap src fields => Sys2Proof.Machine.execTotalCap src fields s
  | .shareHold src fields => Sys2Proof.Machine.execShareHold src fields s
  | .regenCut src fields => Sys2Proof.Machine.execRegenCut src fields s
  | .release src fields => Sys2Proof.Machine.execRelease src fields s
  | .refusedBadKind src action fields => Sys2Proof.Machine.execRefusedBadKind src action fields s
  | .holdExpiry src tag => Sys2Proof.Machine.execHoldExpiry src tag s
  | .setMask src events => Sys2Proof.Machine.execSetMask src events s
  | .acknowledge src events => Sys2Proof.Machine.execAcknowledge src events s
  | .frameRejected frame => Sys2Proof.Machine.execFrameRejected frame s
  | .serviceRequest src code params => Sys2Proof.Machine.execServiceRequest src code params s
  | .unknownService => Sys2Proof.Machine.execUnknownService s
  | .enterService => Sys2Proof.Machine.execEnterService s
  | .leaveService => Sys2Proof.Machine.execLeaveService s
  | .leaveServiceCompletion => Sys2Proof.Machine.execLeaveServiceCompletion s
  | .readLinkCounters => Sys2Proof.Machine.execReadLinkCounters s
  | .setLoopback => Sys2Proof.Machine.execSetLoopback s
  | .readArbiterEntry => Sys2Proof.Machine.execReadArbiterEntry s
  | .readIdentity => Sys2Proof.Machine.execReadIdentity s
  | .restart => Sys2Proof.Machine.execRestart s
  | .readCal => Sys2Proof.Machine.execReadCal s
  | .writeCal => Sys2Proof.Machine.execWriteCal s
  | .writeCalCompletion => Sys2Proof.Machine.execWriteCalCompletion s
  | .eraseSector => Sys2Proof.Machine.execEraseSector s
  | .eraseSectorCompletion allErased => Sys2Proof.Machine.execEraseSectorCompletion allErased s
  | .bulkErase => Sys2Proof.Machine.execBulkErase s
  | .bulkEraseCompletion erased0 erased1 erased2 erased3 => Sys2Proof.Machine.execBulkEraseCompletion erased0 erased1 erased2 erased3 s
  | .lockStore => Sys2Proof.Machine.execLockStore s
  | .lockStoreCompletion => Sys2Proof.Machine.execLockStoreCompletion s
  | .slotOpening frontLoopError rearLoopError => Sys2Proof.Machine.execSlotOpening frontLoopError rearLoopError s
  | .reportFrame axle bytes => Sys2Proof.Machine.execReportFrame axle bytes s
  | .slotEnd axle => Sys2Proof.Machine.execSlotEnd axle s
  | .statusTimerExpiry => Sys2Proof.Machine.execStatusTimerExpiry s
  | .frameOffer => Sys2Proof.Machine.execFrameOffer s
  | .transmissionSuccess => Sys2Proof.Machine.execTransmissionSuccess s
  | .transmissionFailure => Sys2Proof.Machine.execTransmissionFailure s
  | .arbitrationLoss => Sys2Proof.Machine.execArbitrationLoss s
  | .silentEnd => Sys2Proof.Machine.execSilentEnd s
  | .eventControlOtherOperation src operation events => Sys2Proof.Machine.execEventControlOtherOperation src operation events s

end Sys2Proof.Machine
end

