-- ==== Sys2Proof/Safety.lean ====
section
/-! DEFINITION. The laws that the manual says hold at every moment, as predicates of a state: the terms in which the
statements speak of a safe run. -/

namespace Sys2Proof.Machine

/-! ## The attention line -/

/-- ATTN_N is low exactly when the set of latched, unmasked events is not empty (R152). -/
def AttentionLaw (s : State) : Prop := s.eu.attnLow = true ↔ s.eu.visible ≠ 0#16

/-! ## The intervention lists -/

/-- Two entries have the same identity (section 4.1). -/
def sameIdentity (a b : Entry) : Prop := a.source = b.source ∧ a.tag = b.tag

/-- The laws of the two lists: the capacities; each stack entry's level below that of the entry beneath it (R64); the
order of the Pending List (R65); no pending entry without a stack top at least as good (R65); no identity twice (R66);
and no two entries of the same arrival order, all of them created already (R63). -/
structure ListLaws (a : Arbiter) : Prop where
  stack_capacity : a.stack.length ≤ stackCapacity
  waiting_capacity : a.waiting.length ≤ waitingCapacity
  stack_levels : a.stack.Pairwise (fun x y => x.level < y.level)
  waiting_order : a.waiting.Pairwise (fun x y => x.level < y.level ∨ (x.level = y.level ∧ x.order < y.order))
  top_best : ∀ e ∈ a.waiting, ∃ top ∈ a.stack.head?, top.level ≤ e.level
  identities : (a.stack ++ a.waiting).Pairwise (fun x y => ¬sameIdentity x y)
  orders_differ : (a.stack ++ a.waiting).Pairwise (fun x y => x.order ≠ y.order)
  orders_past : ∀ e ∈ a.stack ++ a.waiting, e.order < a.arrivals

/-! ## The Calibration Store -/

/-- A store operation in execution has targets inside the store, and none but a bulk erase runs on a locked store: a
write, an erase or a bulk erase runs only with the lock cell clear (R159 to R161). -/
def OperationLaw (c : Store) : Option Operation → Prop
  | some (.write sector offset data) => sector ≤ 3 ∧ offset + data.length ≤ 256 ∧ c.locked = false
  | some (.erase sector) => sector ≤ 3 ∧ c.locked = false
  | some .bulkErase => c.locked = false
  | _ => True

/-- The cells are in canonical form, and a sector that is ERASED or DAMAGED lists none: an ERASED sector reads 0xFF in
every byte (section 10.2). -/
structure StoreLaws (s : State) : Prop where
  canonical : Memory.wf s.store.cells = true
  blank : ∀ sector ≤ 3, s.store.sectors.get sector ≠ .programmed → ∀ c ∈ s.store.cells, c.1 / 256 ≠ sector
  operation : OperationLaw s.store s.su.operation

/-! ## Queues and counters -/

/-- The capacities of the queues and the ranges of the counters: the answer queue (R143), the Service Queue and the
response queue with its reserved place (R154), the transmit error count (R146), the runs and error counters of both
links (R120, R123); a request in execution is still in its queue (R154). -/
structure CapacityLaws (s : State) : Prop where
  answers : s.cp.answers.length ≤ 8
  requests : s.su.queue.length ≤ 4
  responses : s.su.responses.length + (if s.su.operation.isSome then 1 else 0) ≤ 4
  executing : s.su.operation.isSome = true → s.su.queue ≠ []
  transmitErrors : s.cp.errorCount ≤ 255
  runs : ∀ x, (s.links.get x).goodRun ≤ 255 ∧ (s.links.get x).badRun ≤ 255
  errors : ∀ x, (s.links.get x).nearErrors ≤ 255 ∧ (s.links.get x).farErrors ≤ 255

/-! ## Device state, links and torque -/

/-- The device state with all that follows it: held in reset only in INIT, and checking only out of reset (R2, R5);
the links OFF and their slot timers stopped exactly in INIT (R114, R121); loopbacks closed only in SERVICE (R125); the
pass timer running exactly in STANDBY and ACTIVE (R13); a pass in progress only while the pass timer runs, begun in the
present device state, its results computed from its snapshot (R14); a LEAVE SERVICE in execution only in SERVICE (R11);
both intervention lists empty outside STANDBY and ACTIVE (R61, R76, R80, R81). -/
structure DeviceLaws (s : State) : Prop where
  held : s.osc.held = true ∨ s.osc.checking = true → s.osc.device = .init
  checking : s.osc.checking = true → s.osc.held = false
  links_off : ∀ x, (s.links.get x).state = .off ↔ s.osc.device = .init
  slots : ∀ x, (s.links.get x).slot = .none ↔ s.osc.device = .init
  loops : ∀ x, (s.links.get x).loop ≠ .opened → s.osc.device = .service
  pass_timer : s.ae.passTimer = true ↔ (s.osc.device = .standby ∨ s.osc.device = .active)
  pass : ∀ p ∈ s.ae.pass, s.ae.passTimer = true ∧ p.snapshot.device = s.osc.device ∧ p.result = p.snapshot.compute
  leaving : s.su.operation = some .imageCheck → s.osc.device = .service
  lists : s.osc.device ≠ .standby → s.osc.device ≠ .active → s.ia.stack = [] ∧ s.ia.waiting = []

/-- Outside ACTIVE both published outputs and both previous outputs are 0 N·m (section 1.4, R10, R12, R109). -/
def NoTorqueOutsideActive (s : State) : Prop :=
  s.osc.device ≠ .active → s.ae.record.output = ⟨0, 0⟩ ∧ s.ae.prev = ⟨0, 0⟩

/-- The frame numbers of the two links agree and are 0 to 7 (R115). -/
def SlotsTogether (s : State) : Prop :=
  s.links.front.position = s.links.rear.position ∧ s.links.front.position < 8 ∧
    (s.links.front.slot = .none ↔ s.links.rear.slot = .none)

/-! ## Ranges of the control pass -/

/-- An entry's fields are in the ranges of R63. -/
def EntryRanges (e : Entry) : Prop :=
  e.level ≤ 7 ∧ e.value ≤ 12000 ∧ (e.kind = .shareHold → e.value ≤ 1024) ∧ 10 ≤ e.hold ∧ e.hold ≤ 500

/-- The fields a pass computes from are in their ranges (R17, R34, R63, R83). -/
structure SnapshotRanges (p : Snapshot) : Prop where
  torque : -24000 ≤ p.demand.torque ∧ p.demand.torque ≤ 24000
  held : -24000 ≤ p.heldDemand ∧ p.heldDemand ≤ 24000
  blend : 0 ≤ p.blend.start ∧ p.blend.start ≤ 1024
  blend_count : p.blend.count < 250
  stack : ∀ e ∈ p.stack, EntryRanges e
  capability : ∀ x, p.drive.get x ≤ 12000 ∧ p.regen.get x ≤ 12000
  limits : p.limits.discharge ≤ 10000 ∧ p.limits.charge ≤ 10000

/-- The Apportionment Record is in the ranges of R16. -/
structure RecordRanges (r : Apportionment) : Prop where
  output : ∀ x, -12000 ≤ r.output.get x ∧ r.output.get x ≤ 12000
  share : 0 ≤ r.share ∧ r.share ≤ 1024
  accepted : -24000 ≤ r.accepted ∧ r.accepted ≤ 24000
  unserved : -24000 ≤ r.unserved ∧ r.unserved ≤ 24000
  factor : 0 ≤ r.factor ∧ r.factor ≤ 32768
  discharge : r.discharge ≤ 10000

/-- The windows satisfy −12 000 ≤ lo ≤ 0 ≤ hi ≤ 12 000 (R92). -/
def WindowLaw (w : Window) : Prop := -12000 ≤ w.lo ∧ w.lo ≤ 0 ∧ 0 ≤ w.hi ∧ w.hi ≤ 12000

/-- A torque has the sign of a demand or is 0, and its magnitude is not larger. -/
def Within (t d : Int) : Prop := (0 ≤ t ∧ t ≤ d) ∨ (d ≤ t ∧ t ≤ 0)

/-- The state holds what a pass computes from in its ranges, both lists' entries in theirs, and the Apportionment Record
in its, and the same of the snapshot of a pass in progress (R16, R17, R34, R63, R83, R103). With it: the sixteen
positions of each delay line and the filtered slip (R44, R46), the slip counts (R49, R50), the speeds (section 5.1 of the
scope file), the tongue load (R24), the previous outputs, the last power factor and the shortfall count (R110, R111), the
alive counter's reference and bad-counter run (R19), a pending mode other than the current one, which no pass in progress
sees change (R31), and both override records off while the Reference Record is not FRESH (R52, R55, R56). -/
structure RangeLaws (s : State) : Prop where
  snapshot : SnapshotRanges s.snapshot
  waiting : ∀ e ∈ s.ia.waiting, EntryRanges e
  previous : ∀ x, (s.cu.get x).prevDrive ≤ 12000 ∧ (s.cu.get x).prevRegen ≤ 12000
  record : RecordRanges s.ae.record
  pass : ∀ p ∈ s.ae.pass, SnapshotRanges p.snapshot ∧ p.result = p.snapshot.compute ∧ p.snapshot.mode = s.du.mode
  slip : ∀ x, (s.se.axle.get x).taps.length = 16 ∧ (∀ r ∈ (s.se.axle.get x).taps, -32767 ≤ r ∧ r ≤ 32767) ∧
    (-32767 ≤ (s.se.axle.get x).filtered ∧ (s.se.axle.get x).filtered ≤ 32767) ∧
    (s.se.axle.get x).enterCount ≤ 3 ∧ (s.se.axle.get x).exitCount ≤ 7
  speeds : ∀ x, (-32768 ≤ s.se.reference.speed.get x ∧ s.se.reference.speed.get x ≤ 32767) ∧
    (-32768 ≤ (s.links.get x).speed ∧ (s.links.get x).speed ≤ 32767)
  load : s.du.load.tongue ≤ 2500
  outputs : ∀ x, -12000 ≤ s.ae.prev.get x ∧ s.ae.prev.get x ≤ 12000
  factor : 0 ≤ s.ae.lastFactor ∧ s.ae.lastFactor ≤ 32768
  shortfall : s.ae.shortfall ≤ 65535
  counter : (∀ r ∈ s.du.counterRef, r < 16) ∧ s.du.badRun ≤ 2
  pending_mode : s.du.pendingMode ≠ some s.du.mode
  overrides : s.se.reference.freshness ≠ .fresh → ∀ x, (s.se.axle.get x).override = none

/-! ## What the statements suppose and conclude -/

/-- A frame from a source reaches the owner of its kind: the port is ON, the device is past INIT, and the source is
bound to the role (R136, R138). -/
def FrameTaken (s : State) (src : Source) (r : Role) : Prop :=
  s.cp.state = .on ∧ s.osc.device ≠ .init ∧ s.bound src r = true

/-- The SU begins a request with a service code: it is at the head of the Service Queue, no request is in execution, the
response queue has room, restart pending is clear, and the device is past INIT (R154). -/
structure Begins (s : State) (code : Byte) (r : Request) : Prop where
  head : s.su.queue.head? = some r
  code_eq : r.code = code
  idle : s.su.operation = none
  room : s.su.responses.length < 4
  running : s.su.restartPending = false
  past_init : s.osc.device ≠ .init

/-- The payload of zeros (section 8.7.2). -/
def noPayload : List Byte := [0#8, 0#8, 0#8, 0#8, 0#8, 0#8]

/-- The state after the request at the head of the queue has completed with a response (R154), all else as it was. -/
def afterResponse (s : State) (r : Request) (result : ServiceResult) (payload : List Byte) : State :=
  { s with su :=
      { queue := s.su.queue.tail, responses := s.su.responses ++ [⟨r.source, r.code, result, payload⟩],
        operation := none, restartPending := s.su.restartPending } }

/-- The state after a request has gone into execution (R154), all else as it was. -/
def inExecution (s : State) (op : Operation) : State := { s with su := { s.su with operation := some op } }

/-- The state after a reset has begun: every volatile piece at the value the chapters give (R4, R23, R24, R31, R34, R59,
R81, R94, R113, R135, R147, R153, R154), with what the OSC then holds and what the reset left of the store. -/
def volatileCleared (s : State) (osc : OperatingState) (store : Store) : State :=
  let axle : SlipAxle :=
    { taps := [0, 0, 0, 0, 0, 0, 0, 0, 0, 0, 0, 0, 0, 0, 0, 0], filtered := 0, saturated := false, auto := .grip,
      enterCount := 0, exitCount := 0, override := none }
  let capability : AxleCapability := { drive := 0, regen := 0, prevDrive := 0, prevRegen := 0, inverter := .off }
  let link : Link :=
    { state := .off, goodRun := 0, badRun := 0, position := 0, sentWord := 0, received := 0, complete := false,
      prevWord := none, ackVerified := false, nearErrors := 0, farErrors := 0, loop := .opened, testCount := 0,
      speed := 0, slot := .none, sentFrame := [], line := [] }
  { osc := osc
    du :=
      { demand := { torque := 0, mode := .normal, driveEnable := false, regenPermitted := false, freshness := .absent },
        counterRef := none, badRun := 0, resynced := false, heldDemand := 0,
        load := { tongue := 0, trailer := false, freshness := .absent },
        mode := .normal, pendingMode := none, blend := { active := false, start := 0, count := 0 } }
    se := { reference := { speed := ⟨0, 0⟩, freshness := .absent }, axle := ⟨axle, axle⟩ }
    ia := { stack := [], waiting := [], arrivals := 0 }
    cu := ⟨capability, capability⟩
    ae :=
      { prev := ⟨0, 0⟩, limits := { discharge := 0, charge := 0, freshness := .absent },
        record := { output := ⟨0, 0⟩, share := 0, accepted := 0, unserved := 0, factor := 32768, discharge := 0 },
        lastFactor := 32768, shortfall := 0, passTimer := false, pass := none }
    links := ⟨link, link⟩
    eu := { events := 0x0001#16, mask := 0xFFFF#16, attnLow := false }
    cp :=
      { state := .on, errorCount := 0, statusTimer := false, slotA := ⟨none, none⟩, slotB := ⟨none, none⟩,
        slotC := ⟨none, none⟩, answers := [], transmission := none,
        timers := { demand30 := false, demand130 := false, reference := false, battery := false, load := false },
        binding := none }
    su := { queue := [], responses := [], operation := none, restartPending := false }
    store := store
    image := none
    chassis := none
    reading := s.reading
    pending := s.pending }

/-- What a reset leaves of the store when it abandons an operation (R163): the target sectors DAMAGED, every byte of
them reading zero, and all else as it stood; after a bulk erase the lock cell clear. -/
def Damages (c d : Store) (targets : Nat → Prop) : Prop :=
  (∀ k ≤ 3, targets k → d.sectors.get k = .damaged ∧ ∀ off < 256, d.byte k off = 0#8) ∧
  (∀ k ≤ 3, ¬targets k → d.sectors.get k = c.sectors.get k ∧ ∀ off < 256, d.byte k off = c.byte k off)

/-- The state after an event has latched, all else as it was: its bit set in the Event Set, ATTN_N low exactly while a
latched event is unmasked (R149, R152; bits of section 8.7.3). -/
def latched (s : State) (bit : Nat) : State :=
  { s with eu :=
      { events := s.eu.events ||| (1#16 <<< bit), mask := s.eu.mask,
        attnLow := ((s.eu.events ||| (1#16 <<< bit)) &&& ~~~s.eu.mask) != 0#16 } }

/-- The state after an event has latched if a condition holds. -/
def latchedIf (s : State) (onset : Bool) (bit : Nat) : State := if onset then latched s bit else s

/-- The command of an INTERVENTION frame that requests a kind. -/
def requestOf : InterventionKind → Source → InterventionFields → Instr
  | .axleCap, src, f => .axleCap src f
  | .totalCap, src, f => .totalCap src f
  | .shareHold, src, f => .shareHold src f
  | .regenCut, src, f => .regenCut src f

/-- The IA takes an INTERVENTION frame from a source in STANDBY or ACTIVE (R61, R138). -/
def InterventionTaken (s : State) (src : Source) : Prop :=
  (FrameTaken s src .sc ∨ FrameTaken s src .tm) ∧ (s.osc.device = .standby ∨ s.osc.device = .active)

/-- Neither list holds an entry of an identity (R66). -/
def NotHeld (s : State) (src : Source) (tag : Byte) : Prop :=
  ∀ e ∈ s.ia.stack ++ s.ia.waiting, ¬(e.source = src ∧ e.tag = tag)

/-- The entry that R63 forms from a request of a kind at a clamped level, in its arrival order. -/
def formedEntry (k : InterventionKind) (src : Source) (f : InterventionFields) (level order : Nat) : Entry :=
  let selector : AxleSelector :=
    if f.axleByte.toNat % 16 = 1 then .front else if f.axleByte.toNat % 16 = 2 then .rear else .both
  { source := src, tag := f.tag, kind := k, level := level,
    axle := if k = .axleCap ∨ k = .regenCut then selector else .both,
    value := match k with
      | .axleCap => min f.value.toNat 12000
      | .totalCap => min f.value.toNat 12000
      | .shareHold => min f.value.toNat 1024
      | .regenCut => 0,
    noTransfer := decide (k = .axleCap) && f.axleByte.getLsbD 4,
    hold := 10 * max 1 (min f.hold.toNat 50),
    order := order }

/-- An answer to an entry. -/
def answerTo (e : Entry) (code : AnswerCode) (place : Place) : Answer :=
  { dest := e.source, tag := e.tag, code := code, level := e.level, place := place }

/-- The state after the IA has set its lists and handed answers to the answer queue, which takes them as R143 lays down,
a full queue by discarding its oldest; all else as it was. -/
def answered (s : State) (ia : Arbiter) (answers : List Answer) : State :=
  { s with ia := ia, cp := s.cp.addAnswers answers }

/-- Byte 0 of a command frame (section 8.7.5). -/
def commandByte (number : Nat) (maintenance enable regen test : Bool) : Byte :=
  BitVec.ofNat 8 (number + 8 * maintenance.toNat + 16 * enable.toNat + 32 * regen.toNat + 64 * test.toNat)

/-- The four bytes of a command frame: byte 0, the torque field, the check value (section 8.7.5, R117). -/
def commandBytes (b0 : Byte) (torque : BitVec 16) : List Byte :=
  let body := [b0, torque.extractLsb' 8 8, torque.extractLsb' 0 8]
  body ++ [crc8 body]

/-- A report frame that R118 makes good in normal operation: eight bytes, the check value right, the echoed frame number
that of the slot. -/
def GoodReport (l : Link) (bytes : List Byte) : Prop :=
  bytes.length = 8 ∧ crc8 (bytes.take 7) = bytes.getD 7 0#8 ∧ (bytes.getD 0 0#8).toNat % 8 = l.position

/-- The link after its next slot has opened (R114, R115, R125 to R128, R131): the frame number moves on by 1 and from 7 to
0; at slot 0 the maintenance word is formed and the received bits are cleared; the command frame is built from the device
state, the regen permitted field and the axle's output, or carries the test count in SERVICE with a loopback closed. -/
def openedLink (l : Link) (d : DeviceState) (regen : Bool) (output : Int) : Link :=
  let k := (l.position + 1) % 8
  let test : Bool := d == .service && l.loop != .opened
  let code : Byte :=
    match d with
    | .init => 0#8
    | .standby => 1#8
    | .active => 2#8
    | .service => 3#8
    | .safeHold => 4#8
  let word : Byte := if k = 0 then code ||| (if l.loop = .far then 8#8 else 0#8) else l.sentWord
  let torque : BitVec 16 := if test then l.testCount else if d = .active then BitVec.ofInt 16 output else 0#16
  let frame := commandBytes (commandByte k (word.getLsbD k) (d == .active) regen test) torque
  { l with
    position := k, sentWord := word, received := if k = 0 then 0#8 else l.received,
    complete := if k = 0 then true else l.complete, slot := .waiting, sentFrame := frame,
    line := if l.loop = .nearOpaque then [0xFF#8, 0xFF#8, 0xFF#8, 0xFF#8] else frame,
    testCount := if test then l.testCount + 1 else l.testCount }

/-- The link after a good slot result with its maintenance bit, short of what slot 7 settles (R120, R121, R128). -/
def goodSlot (l : Link) (bit : Bool) : Link :=
  { l with
    goodRun := min (l.goodRun + 1) 255, badRun := 0, slot := .settled,
    received := if bit then l.received ||| (1#8 <<< l.position) else l.received,
    state :=
      match l.state with
      | .off => .off
      | .acquire => if 4 ≤ l.goodRun + 1 then .up else .acquire
      | .up => .up
      | .impaired => if 16 ≤ l.goodRun + 1 then .up else .impaired
      | .lost => .acquire }

/-- The link after a bad slot result (R120 to R123, R128): a superframe with a bad result is incomplete, so slot 7 leaves
no previous complete word. -/
def badSlot (l : Link) : Link :=
  let state : LinkState :=
    match l.state with
    | .off => .off
    | .acquire => .acquire
    | .up => .impaired
    | .impaired => if 8 ≤ l.badRun + 1 then .lost else .impaired
    | .lost => .lost
  let loses : Bool := l.state != .lost && state == .lost
  { l with
    badRun := min (l.badRun + 1) 255, goodRun := 0, nearErrors := min (l.nearErrors + 1) 255, slot := .settled,
    complete := false, state := state,
    prevWord := if loses || decide (l.position = 7) then none else l.prevWord,
    ackVerified := if loses then false else l.ackVerified }

/-- The inverter state that bits 2..0 of a maintenance word name (R85). -/
def inverterOfWord (w : Byte) : InverterState :=
  if w.toNat % 8 = 0 then .off else if w.toNat % 8 = 1 then .ready else if w.toNat % 8 = 2 then .run
  else if w.toNat % 8 = 3 then .derate else .fault

/-- The state after the settlement of a superframe whose last slot gave a good result (R85, R86, R128, R129): the complete
word, or none, becomes the previous one; a word received twice in all its eight bits (log entry 34) is verified and, but in a near
loopback, handed on. -/
def settledSuperframe (s : State) (x : Axle) : State :=
  let l := s.links.get x
  let c := s.cu.get x
  let w := l.received
  let handed : Bool :=
    l.complete && l.prevWord == some w && (l.loop == .opened || l.loop == .far)
  latchedIf { s with
    links := s.links.set x { l with
      prevWord := if l.complete then some w else none,
      ackVerified := if handed then l.loop == .far && w.getLsbD 3 else l.ackVerified },
    cu := if handed then s.cu.set x { c with inverter := inverterOfWord w } else s.cu }
    (handed && inverterOfWord w == .fault && c.inverter != .fault) 9

/-- The state after a good slot result with its maintenance bit, what slot 7 settles included. -/
def afterGoodSlot (s : State) (x : Axle) (bit : Bool) : State :=
  let l := s.links.get x
  let t := { s with links := s.links.set x (goodSlot l bit) }
  if l.position = 7 then settledSuperframe t x else t

/-- The state after a bad slot result (R120 to R123, R128): entry into IMPAIRED latches LINK IMPAIRED; entry into LOST
latches LINK LOST and clears the axle's capabilities and inverter state record (R84, R122), in every loopback state (log
entry 29). -/
def afterBadSlot (s : State) (x : Axle) : State :=
  let l := s.links.get x
  let m := badSlot l
  let impaired : Bool := l.state == .up && m.state == .impaired
  let lost : Bool := l.state == .impaired && m.state == .lost
  let cleared : AxleCapability := { drive := 0, regen := 0, prevDrive := 0, prevRegen := 0, inverter := .off }
  latchedIf
    (latchedIf { s with links := s.links.set x m, cu := if lost then s.cu.set x cleared else s.cu } impaired
      (if x = .front then 5 else 6))
    lost (if x = .front then 7 else 8)

/-- A command frame as it returns in a near loopback whose path inverts these bits (log entry 13). -/
def returnedFrame (l : Link) (e : BitVec 32) : List Byte :=
  [l.sentFrame.getD 0 0#8 ^^^ e.extractLsb' 24 8, l.sentFrame.getD 1 0#8 ^^^ e.extractLsb' 16 8,
   l.sentFrame.getD 2 0#8 ^^^ e.extractLsb' 8 8, l.sentFrame.getD 3 0#8 ^^^ e.extractLsb' 0 8]

/-- A looped frame returns intact: its check value is right, and frame number and test count are those sent (R131). -/
def Intact (l : Link) (frame : List Byte) : Prop :=
  crc8 (frame.take 3) = frame.getD 3 0#8 ∧ (frame.getD 0 0#8).toNat % 8 = l.position ∧
    frame.getD 1 0#8 = l.sentFrame.getD 1 0#8 ∧ frame.getD 2 0#8 = l.sentFrame.getD 2 0#8

/-- Within a slot just opened a near loopback takes the slot's own command frame: a good result when it returned intact,
and else a bad one; without a near loopback nothing is taken (R118, R131). -/
def TakesOwnFrame (s : State) (x : Axle) (e : BitVec 32) (t : State) : Prop :=
  let l := s.links.get x
  let near : Prop := l.loop = .nearTransparent ∨ l.loop = .nearOpaque
  let frame := returnedFrame l e
  (¬near → t = s) ∧
  (near → Intact l frame → t = afterGoodSlot s x ((frame.getD 0 0#8).getLsbD 3)) ∧
  (near → ¬Intact l frame → t = afterBadSlot s x)

/-- The value of an answer code in an INTERVENTION ANSWER (section 8.7.2). -/
def answerValue (code : AnswerCode) : Byte :=
  match code with
  | .accepted => 0x01#8
  | .pending => 0x02#8
  | .updated => 0x03#8
  | .displaced => 0x04#8
  | .dropped => 0x05#8
  | .released => 0x06#8
  | .expired => 0x07#8
  | .cleared => 0x08#8
  | .notFound => 0x09#8
  | .refusedFull => 0x10#8
  | .refusedWrongState => 0x11#8
  | .refusedBadKind => 0x12#8

/-- The value of a place in an INTERVENTION ANSWER (section 8.7.2). -/
def placeValue (place : Place) : Byte :=
  match place with
  | .none => 0#8
  | .stack => 1#8
  | .pending => 2#8

/-- The value of a result in a SERVICE RESPONSE (section 8.7.4). -/
def resultValue (result : ServiceResult) : Byte :=
  match result with
  | .done => 0x00#8
  | .busy => 0x01#8
  | .wrongState => 0x02#8
  | .locked => 0x03#8
  | .notErased => 0x04#8
  | .badAddress => 0x05#8
  | .damaged => 0x06#8
  | .eraseFailed => 0x07#8
  | .imageInvalid => 0x08#8
  | .unknownService => 0x09#8

/-- A frame that R145 makes a candidate for transmission: the frame of a transmit slot, or the head of the answer queue or of
the service response queue, with the identifier of its kind and source number (section 8.1) and the bytes of its layout (sections
8.7.2 and 8.7.4). -/
def Candidate (s : State) (c : ChassisConfig) (t : Transmission) : Prop :=
  (t.origin = .slotA ∧ s.cp.slotA.frame = some t.data ∧ t.ident = c.base + 8 * 8 + c.own.val) ∨
  (t.origin = .slotB ∧ s.cp.slotB.frame = some t.data ∧ t.ident = c.base + 8 * 9 + c.own.val) ∨
  (t.origin = .slotC ∧ s.cp.slotC.frame = some t.data ∧ t.ident = c.base + 8 * 10 + c.own.val) ∨
  (∃ a ∈ s.cp.answers.head?, t.origin = .answer ∧ t.ident = c.base + 8 * 11 + a.dest.val ∧
    t.data = [a.tag, answerValue a.code, BitVec.ofNat 8 a.level, placeValue a.place]) ∨
  (∃ r ∈ s.su.responses.head?, t.origin = .response ∧ t.ident = c.base + 8 * 12 + r.dest.val ∧
    t.data = r.code :: resultValue r.result :: r.payload)

/-- The roles that may send a kind of frame, and the length of the kind (R138). -/
def kindTable : List (List Role × Nat) :=
  [([.ds], 5), ([.sc], 4), ([.bm], 4), ([.tm], 3), ([.sc, .tm], 7), ([.sc], 2), ([.ds], 3), ([.st], 8)]

/-- The twelve service codes listed in section 8.7.4. -/
def listedCodes : List Byte :=
  [0x01#8, 0x02#8, 0x10#8, 0x11#8, 0x12#8, 0x13#8, 0x14#8, 0x20#8, 0x21#8, 0x22#8, 0x23#8, 0x30#8]

end Sys2Proof.Machine
end

