-- ==== Sys2Proof/WellFormed.lean ====
section
/-! DEFINITION. Which command terms spell an occurrence that the manual describes. The machine is total: what it does
with an ill-formed term is said at the meaning concerned. -/

namespace Sys2Proof

/-- A frame the bus can carry: an identifier of its format's width, a data length code of 4 bits, and as many data
bytes as the code says, 9 to 15 meaning 8 (R136); a remote frame carries none. -/
def CanFrame.wellFormed (f : CanFrame) : Bool :=
  decide (f.ident < if f.extended then 2 ^ 29 else 2 ^ 11) && decide (f.dlc < 16) &&
    decide (f.data.length = if f.remote then 0 else min f.dlc 8)

/-- A term of a row is well formed when it spells an occurrence of that row and of no other:
`refusedBadKind` carries an action code that no other INTERVENTION row stands for (section 8.7.1);
`eventControlOtherOperation` an operation code other than SET MASK and ACKNOWLEDGE (R150);
`serviceRequest` seven parameter bytes (R154); `reportFrame` the eight bytes of a complete frame (R116);
`frameRejected` a frame the bus can carry. -/
def Instr.wellFormed : Instr → Bool
  | .refusedBadKind _ action _ => decide (5 ≤ action.toNat)
  | .eventControlOtherOperation _ op _ => decide (op ≠ 1#8) && decide (op ≠ 2#8)
  | .serviceRequest _ _ params => decide (params.length = 7)
  | .reportFrame _ bytes => decide (bytes.length = 8)
  | .frameRejected f => f.wellFormed
  | .powerReset | .pinReset | .resetRelease _ | .imageCheckOfInit | .passTimerExpiry | .passCompletion
  | .demand _ _ _ _ _ | .demandTimer30Ms | .demandTimer130Ms | .load _ _ _ | .loadTimer | .reference _ _ _
  | .referenceTimer | .batteryLimit _ _ _ | .batteryLimitTimer | .slipOverride _ _ _ | .axleCap _ _ | .totalCap _ _
  | .shareHold _ _ | .regenCut _ _ | .release _ _ | .holdExpiry _ _ | .setMask _ _ | .acknowledge _ _
  | .unknownService | .enterService | .leaveService | .leaveServiceCompletion | .readLinkCounters | .setLoopback
  | .readArbiterEntry | .readIdentity | .restart | .readCal | .writeCal | .writeCalCompletion | .eraseSector
  | .eraseSectorCompletion _ | .bulkErase | .bulkEraseCompletion _ _ _ _ | .lockStore | .lockStoreCompletion
  | .slotOpening _ _ | .slotEnd _ | .statusTimerExpiry | .frameOffer | .transmissionSuccess | .transmissionFailure
  | .arbitrationLoss | .silentEnd => true

end Sys2Proof
end

