-- ==== Sys2Proof/Certificates/Slice0/Obligations.lean ====
section
/-! DEFINITION. The statements about the model, for the provers. A docstring names what of the spec a statement
formalises; a clause that rests on a choice of the model names the log entry. -/

open Sys2Proof Sys2Proof.Machine

/-! ## Steps -/

/-- A step takes the command at the front of the queue and executes it with the queue's rest; on an empty queue the block
idles, which is the model's choice (log entry 2). -/
def Obligations.StepRunsFrontCommand : Prop :=
  (∀ (c : Instr) (s : State), step { s with pending := c :: s.pending } = exec c s) ∧
  (∀ s : State, s.pending = [] → step s = .next s)

/-- Every command, in every state, answers a next state, and leaves the queue of waiting commands as it is. Both are the
model's: a command that names an event which cannot occur in the present state leaves the state as it is (log entry 4), and the
queue stands in for the outside that sends the commands (log entry 24). -/
def Obligations.EveryCommandCompletesAndKeepsQueue : Prop :=
  ∀ (c : Instr) (s : State), ∃ t, exec c s = .next t ∧ t.pending = s.pending

/-! ## Resets and INIT -/

/-- POWER_RESET, PIN_RESET and RESET_RELEASE. A reset of either kind, when its condition does not hold already, clears
every volatile piece of state, keeps the store but for an abandoned operation, holds the TQ620 in reset in INIT, and
records the cause of R3. The end of a condition lets INIT begin once no other holds (R2, R5). The cause recorded when conditions
overlap, and a release that names the condition which ends, are how the model reads R2 and R3 (log entry 14). -/
def Obligations.ResetsClearVolatileState : Prop :=
  (∀ s : State, s.osc.supplyLow = false →
    exec .powerReset s = .next (volatileCleared s
      { device := .init, cause := .power, supplyLow := true, pinLow := s.osc.pinLow,
        restartPeriod := s.osc.restartPeriod, checking := false } (s.store.abandon s.su.operation))) ∧
  (∀ s : State, s.osc.pinLow = false →
    exec .pinReset s = .next (volatileCleared s
      { device := .init, cause := if s.osc.supplyLow then .power else .pin, supplyLow := s.osc.supplyLow, pinLow := true,
        restartPeriod := s.osc.restartPeriod, checking := false } (s.store.abandon s.su.operation))) ∧
  (∀ s : State, s.osc.supplyLow = true →
    exec (.resetRelease .power) s = .next { s with osc := { s.osc with
      supplyLow := false, checking := !(s.osc.pinLow || s.osc.restartPeriod) } }) ∧
  (∀ s : State, s.osc.pinLow = true →
    exec (.resetRelease .pin) s = .next { s with osc := { s.osc with
      pinLow := false, checking := !(s.osc.supplyLow || s.osc.restartPeriod) } }) ∧
  (∀ s : State, s.osc.restartPeriod = true →
    exec (.resetRelease .restart) s = .next { s with osc := { s.osc with
      restartPeriod := false, checking := !(s.osc.supplyLow || s.osc.pinLow) } })

/-- TRANSMISSION_SUCCESS of a response: the head leaves the response queue and the transmit error count decreases; when
it is the DONE response of a RESTART, the RESTART reset begins (R2, R144, R145, R157). That this response is the one with service
code 0x30 and result DONE is read from R155 and R157 (log entry 26). -/
def Obligations.RestartResetFollowsItsResponse : Prop :=
  ∀ (s : State) (t : Transmission) (r : Response) (rest : List Response),
    s.cp.transmission = some t → t.origin = .response → s.su.responses = r :: rest →
    (r.code = 0x30#8 ∧ r.result = .done → s.osc.supplyLow = false → s.osc.pinLow = false → s.osc.restartPeriod = false →
      exec .transmissionSuccess s = .next (volatileCleared s
        { device := .init, cause := .restart, supplyLow := false, pinLow := false, restartPeriod := true,
          checking := false } (s.store.abandon s.su.operation))) ∧
    (¬(r.code = 0x30#8 ∧ r.result = .done) →
      exec .transmissionSuccess s = .next { s with
        cp := { s.cp with transmission := none, errorCount := s.cp.errorCount - 1 },
        su := { s.su with responses := rest } })

/-- A reset leaves of the store what R163 lays down for the operation it abandons: a write or an erase of a sector leaves
that sector DAMAGED, a bulk erase all four and the lock cell clear, and any other operation nothing. Said of POWER_RESET
and PIN_RESET. -/
def Obligations.ResetDamagesAbandonedOperation : Prop :=
  ∀ (s : State) (c : Instr),
    (c = .powerReset ∧ s.osc.supplyLow = false) ∨ (c = .pinReset ∧ s.osc.pinLow = false) →
    ∃ t, exec c s = .next t ∧
      (∀ sector offset data, sector ≤ 3 → s.su.operation = some (.write sector offset data) →
        Damages s.store t.store (· = sector) ∧ t.store.locked = s.store.locked) ∧
      (∀ sector, sector ≤ 3 → s.su.operation = some (.erase sector) →
        Damages s.store t.store (· = sector) ∧ t.store.locked = s.store.locked) ∧
      (s.su.operation = some .bulkErase → Damages s.store t.store (fun _ => True) ∧ t.store.locked = false) ∧
      (s.su.operation = some .lock ∨ s.su.operation = some .imageCheck ∨ s.su.operation = none → t.store = s.store)

/-- IMAGE_CHECK_OF_INIT: at the completion of the image check of INIT the device state, the timers, the calibration and
the chassis configuration in force are set, the links go to ACQUIRE, and the first slot opens on both (R6, R7, R114,
R127). That the first slot opens within this step is read from R114 (log entry 7). The configuration that a valid image gives:
the base as stored with its seven lowest bits 0, at most 0x780, the own source at most 7, and the eight entries of the Source
Table (R136, R137, R164). The binding of a configuration: a source has a role when it is the lowest-numbered one, the own source
left out, whose entry carries it (R137). The default configuration gives no level ranges, and the bounds 0 and 0 that stand here
for them are the model's choice (log entry 21). -/
def Obligations.ImageCheckOfInitSetsDeviceAndLinks : Prop :=
  (∀ s : State, s.osc.checking = true → (∀ x, (s.links.get x).loop = .opened) →
    let ok := s.store.image.valid
    let device : DeviceState := if ok then .standby else .safeHold
    let config : ChassisConfig := if ok then s.store.image.chassis else
      { base := 0x600, own := 7,
        table := [⟨.none, 0, 0⟩, ⟨.none, 0, 0⟩, ⟨.none, 0, 0⟩, ⟨.none, 0, 0⟩, ⟨.none, 0, 0⟩, ⟨.none, 0, 0⟩,
                  ⟨.st, 0, 0⟩, ⟨.none, 0, 0⟩] }
    let word : Byte := if ok then 1#8 else 4#8
    let frame := commandBytes (commandByte 0 ok false s.du.demand.regenPermitted false) 0#16
    let first (l : Link) : Link :=
      { l with state := .acquire, goodRun := 0, badRun := 0, position := 0, sentWord := word, received := 0#8,
               complete := true, slot := .waiting, sentFrame := frame, line := frame }
    exec .imageCheckOfInit s = .next { s with
      osc := { s.osc with device := device, checking := false },
      ae := { s.ae with passTimer := ok },
      cp := { s.cp with statusTimer := true, binding := some config.binding },
      links := ⟨first s.links.front, first s.links.rear⟩,
      image := some s.store.image,
      chassis := some config }) ∧
  (∀ m : Image,
    let at_ (k : Nat) : Nat := (m.byte 1 k).toNat
    m.chassis.base = min ((256 * at_ 0 + at_ 1) / 128 * 128) 0x780 ∧ m.chassis.own.val = min (at_ 2) 7 ∧
    m.chassis.table.length = 8 ∧
    ∀ n < 8, ∃ e ∈ m.chassis.table[n]?,
      e.lower = at_ (5 + 2 * n) / 16 ∧ e.upper = at_ (5 + 2 * n) % 16 ∧
      e.role = if at_ (4 + 2 * n) = 1 then .ds else if at_ (4 + 2 * n) = 2 then .sc else if at_ (4 + 2 * n) = 3 then .bm
        else if at_ (4 + 2 * n) = 4 then .tm else if at_ (4 + 2 * n) = 5 then .st else .none) ∧
  (∀ (s : State) (c : ChassisConfig) (src : Source) (r : Role), s.cp.binding = some c.binding →
    let carries (n : Source) : Prop := n ≠ c.own ∧ ∃ e ∈ c.table[n.val]?, e.role = r
    s.bound src r = true ↔ r ≠ .none ∧ carries src ∧ ∀ n < src, ¬carries n)

/-- The image is valid exactly when no sector is DAMAGED, the marker stands, and the CRC-32 over sectors 1 to 3 equals
the stored one (R165); so a store whose sector 0 is blank is not valid, and neither is one with a DAMAGED sector. The image gives
the store's bytes, 0x00 throughout a DAMAGED sector, and each calibrated parameter stands at its place in it, two-byte fields
most significant byte first, clamped to its range (R164, with the ranges of R30, R38, R60 and R112). -/
def Obligations.ImageValidityCriteria : Prop :=
  (∀ c : Store,
    (c.image.valid = true ↔
      (∀ k ≤ 3, c.sectors.get k ≠ .damaged) ∧ c.byte 0 0 = 0xA5#8 ∧ c.byte 0 1 = 0x3C#8 ∧
        crc32 ((List.range 768).map (fun n => c.byte (1 + n / 256) (n % 256))) =
          c.byte 0 4 ++ c.byte 0 5 ++ c.byte 0 6 ++ c.byte 0 7) ∧
    ((∀ cell ∈ c.cells, 256 ≤ cell.1) → c.image.valid = false) ∧
    (∀ k ≤ 3, ∀ off, c.image.byte k off =
      if c.sectors.get k = .damaged then 0#8 else readCell c.cells (256 * k + off))) ∧
  (∀ m : Image,
    let u8 (k off : Nat) : Nat := (m.byte k off).toNat
    let u16 (k off : Nat) : Nat := 256 * u8 k off + u8 k (off + 1)
    (∀ mode n, (mode, n) ∈ [(Mode.normal, 0), (Mode.tow, 1), (Mode.terrain, 2), (Mode.rear, 3)] →
      let o := 0x14 + 12 * n
      m.shareLow mode = min (u16 1 o) 1024 ∧ m.shareHigh mode = min (u16 1 (o + 2)) 1024 ∧
      m.slipGain mode = u8 1 (o + 4) ∧ (m.transferFlag mode = true ↔ u8 1 (o + 5) % 2 = 1) ∧
      m.rateUp mode = max 1 (min (u16 1 (o + 6)) 24000) ∧ m.rateDown mode = max 1 (min (u16 1 (o + 8)) 24000) ∧
      m.switchThreshold mode = min (u16 1 (o + 10)) 24000 ∧
      ∀ band j : Nat, m.splitValue mode band j = min (u16 2 (64 * n + 16 * band + 2 * j)) 1024) ∧
    (∀ j : Nat, m.breakpoint j = u16 1 (0x44 + 2 * j)) ∧
    m.loadThreshold1 = min (u16 1 0x54) 2500 ∧ m.loadThreshold2 = min (u16 1 0x56) 2500 ∧
    m.fallbackBand = min (u8 1 0x58) 3 ∧ m.fallbackRamp = max 1 (min (u16 1 0x5A) 24000) ∧
    m.shortfallThreshold = min (u16 1 0x5C) 24000 ∧
    m.fallbackDischarge = min (u16 1 0x5E) 10000 ∧ m.fallbackCharge = min (u16 1 0x60) 10000 ∧
    m.motoring .front = min (u16 1 0x62) 8191 ∧ m.generating .front = min (u16 1 0x64) 8191 ∧
    m.motoring .rear = min (u16 1 0x66) 8191 ∧ m.generating .rear = min (u16 1 0x68) 8191 ∧
    (∀ x o, (x, o) ∈ [(Axle.front, 0x00), (Axle.rear, 0x80)] →
      m.filterLength x = max 4 (min (u8 3 o) 16) ∧ m.thresholdSlope x = u8 3 (o + 1) ∧
      (∀ k < 16, m.coefficient x k =
        if u16 3 (o + 2 + 2 * k) < 32768 then (u16 3 (o + 2 + 2 * k) : Int) else (u16 3 (o + 2 + 2 * k) : Int) - 65536) ∧
      m.baseThreshold x = min (u16 3 (o + 0x22)) 32767 ∧ m.spinMargin x = min (u16 3 (o + 0x24)) 32767 ∧
      m.hysteresis x = min (u16 3 (o + 0x26)) 32767))

/-! ## The control pass -/

/-- PASS_TIMER_EXPIRY: while the pass timer runs and no pass is in progress, a pass begins with the snapshot of R14, and
its results are computed from that snapshot alone; nothing else changes. The results are those of the stages: the held demand, the
pass count of the blend and the base share, and for the Apportionment Record the two outputs, the share, D_acc, U, f and the discharge
limit in force (R15, R16, R110). That the snapshot holds the held demand is read from R26 (log entry 20). -/
def Obligations.PassBeginsFromSnapshot : Prop :=
  (∀ p : Snapshot, p.compute =
    { heldDemand := p.newHeld, blendCount := p.blendCount, baseShare := p.baseShare,
      record := { output := ⟨p.output .front, p.output .rear⟩, share := p.share, accepted := p.accepted,
                  unserved := p.unserved, factor := p.factor, discharge := p.dischargeLimit } }) ∧
  ∀ s : State, s.ae.passTimer = true → s.ae.pass = none →
    ∃ p : Pass, exec .passTimerExpiry s = .next { s with ae := { s.ae with pass := some p } } ∧
      p.result = p.snapshot.compute ∧
      p.snapshot =
        { device := s.osc.device, demand := s.du.demand, heldDemand := s.du.heldDemand, load := s.du.load,
          mode := s.du.mode, pendingMode := s.du.pendingMode, blend := s.du.blend, reference := s.se.reference,
          filtered := ⟨s.se.axle.front.filtered, s.se.axle.rear.filtered⟩,
          displayed := ⟨s.se.axle.front.override.getD s.se.axle.front.auto,
                        s.se.axle.rear.override.getD s.se.axle.rear.auto⟩,
          limits := s.ae.limits, prev := s.ae.prev, shortfall := s.ae.shortfall, stack := s.ia.stack,
          drive := ⟨s.cu.front.drive, s.cu.rear.drive⟩, regen := ⟨s.cu.front.regen, s.cu.rear.regen⟩,
          inverter := ⟨s.cu.front.inverter, s.cu.rear.inverter⟩,
          link := ⟨s.links.front.state, s.links.rear.state⟩, speed := ⟨s.links.front.speed, s.links.rear.speed⟩,
          image := s.image.getD ⟨[], Sectors.all true⟩ }

/-- PASS_COMPLETION: the AE takes the results, the OSC makes the transition that is due, POWER SCALED and SHORTFALL latch
at their onsets, and nothing but the AE, the OSC's device state, the DU and the Event Set changes (R8, R9, R15, R110,
R111). -/
def Obligations.PassCompletionPublishesResults : Prop :=
  ∀ (s : State) (p : Pass), s.ae.pass = some p →
    let snap := p.snapshot
    let r := p.result.record
    let usable (x : Axle) : Prop :=
      (snap.link.get x = .up ∨ snap.link.get x = .impaired) ∧
        (snap.inverter.get x = .ready ∨ snap.inverter.get x = .run ∨ snap.inverter.get x = .derate)
    let entry : Prop := snap.demand.freshness = .fresh ∧ snap.demand.driveEnable = true ∧ (usable .front ∨ usable .rear)
    let exit : Prop := (snap.demand.driveEnable = false ∨ snap.demand.freshness = .lost) ∧ r.output = ⟨0, 0⟩
    let short : Prop := snap.image.shortfallThreshold ≤ (r.unserved.natAbs : Int)
    ∃ t, exec .passCompletion s = .next t ∧
      t.ae.prev = r.output ∧ t.ae.record = r ∧ t.ae.lastFactor = r.factor ∧ t.ae.pass = none ∧
      t.ae.limits = s.ae.limits ∧ t.ae.passTimer = s.ae.passTimer ∧
      (short → t.ae.shortfall = min (snap.shortfall + 1) 65535) ∧ (¬short → t.ae.shortfall = 0) ∧
      (snap.device = .standby ∧ entry → t.osc = { s.osc with device := .active }) ∧
      (snap.device = .active ∧ exit → t.osc = { s.osc with device := .standby }) ∧
      (¬(snap.device = .standby ∧ entry) → ¬(snap.device = .active ∧ exit) → t.osc = s.osc) ∧
      (t.eu.events.getLsbD 12 = true ↔
        s.eu.events.getLsbD 12 = true ∨ (r.factor < 32768 ∧ s.ae.lastFactor = 32768)) ∧
      (t.eu.events.getLsbD 13 = true ↔ s.eu.events.getLsbD 13 = true ∨ (short ∧ snap.shortfall = 49)) ∧
      (∀ b, b ≠ 12 → b ≠ 13 → t.eu.events.getLsbD b = s.eu.events.getLsbD b) ∧ t.eu.mask = s.eu.mask ∧
      t.du.heldDemand = p.result.heldDemand ∧
      t.se = s.se ∧ t.ia = s.ia ∧ t.cu = s.cu ∧ t.links = s.links ∧ t.cp = s.cp ∧ t.su = s.su ∧ t.store = s.store ∧
      t.image = s.image ∧ t.chassis = s.chassis ∧ t.reading = s.reading ∧ t.pending = s.pending

/-- The mode at the completion of a pass: a FRESH record's request is compared with the current mode, and else the
pending mode is; a switch is made in STANDBY or when |D_acc| is at most the current mode's switch threshold, and it starts
a blend from the pass's base share; a blend that is not restarted advances to the pass's count, and ends at 250 (R31 to
R35). -/
def Obligations.PassCompletionSwitchesMode : Prop :=
  ∀ (s t : State) (p : Pass), s.ae.pass = some p → exec .passCompletion s = .next t →
    let snap := p.snapshot
    let wanted : Option Mode := if snap.demand.freshness = .fresh then some snap.demand.mode else snap.pendingMode
    let switch : Prop := snap.device = .standby ∨
      (p.result.record.accepted.natAbs : Int) ≤ snap.image.switchThreshold snap.mode
    let advanced : Blend :=
      if snap.blend.active = false then snap.blend
      else if p.result.blendCount < 250 then { snap.blend with count := p.result.blendCount }
      else { snap.blend with active := false, count := 0 }
    let rest := { s.du with heldDemand := p.result.heldDemand, blend := advanced }
    (wanted = none → t.du = rest) ∧
    (wanted = some snap.mode → t.du = { rest with pendingMode := none }) ∧
    (∀ m, wanted = some m → m ≠ snap.mode → switch →
      t.du = { rest with mode := m, pendingMode := none, blend := ⟨true, p.result.baseShare, 0⟩ }) ∧
    (∀ m, wanted = some m → m ≠ snap.mode → ¬switch → t.du = { rest with pendingMode := some m })

/-- The held demand is formed from a FRESH record by R25, and kept or ramped otherwise by R26. The accepted demand of every pass is the
held demand confined by the smallest TOTAL CAP of the snapshot's stack (R27). With drive enable clear both are 0 in a pass that finds
the record FRESH, and stay 0 in the passes after it (R9, R25, R26). A LOST record brings any held demand to 0 in at most 24 000 passes,
whatever the calibrated ramp (R26, R38). Two readings are the model's, of a record that left FRESH before any pass saw what it had taken:
it follows R26 and R27 where R9 says 0 for drive enable clear (log entry 30), and R26 where R37 says 0 for regen permitted clear (log
entry 32). -/
def Obligations.AcceptedDemandFollowsRecordAndCaps : Prop :=
  (∀ p : Snapshot,
     (p.demand.freshness = .fresh → p.demand.driveEnable = true →
       p.newHeld = if p.demand.regenPermitted = false ∧ p.demand.torque < 0 then 0 else p.demand.torque) ∧
     (p.demand.freshness = .absent ∨ p.demand.freshness = .stale → p.newHeld = p.heldDemand) ∧
     (p.demand.freshness = .lost → 0 ≤ p.heldDemand → p.newHeld = max 0 (p.heldDemand - p.image.fallbackRamp)) ∧
     (p.demand.freshness = .lost → p.heldDemand < 0 → p.newHeld = min 0 (p.heldDemand + p.image.fallbackRamp)) ∧
     ((∀ e ∈ p.stack, e.kind ≠ .totalCap) → p.accepted = p.newHeld) ∧
     (∀ e ∈ p.stack, e.kind = .totalCap → (∀ e' ∈ p.stack, e'.kind = .totalCap → e.value ≤ e'.value) →
       p.accepted = max (-(e.value : Int)) (min p.newHeld e.value)) ∧
     (p.demand.driveEnable = false → p.demand.freshness = .fresh ∨ p.heldDemand = 0 → p.newHeld = 0 ∧ p.accepted = 0) ∧
     Within p.accepted p.newHeld) ∧
  (∀ (m : Image) (d : Int), -24000 ≤ d → d ≤ 24000 → (fun x => rampToZero x m.fallbackRamp)^[24000] d = 0)

/-- The base share read from the Split Map at a map speed (R30): the end values outside the breakpoints, the interpolation of the first
segment whose upper breakpoint is above the speed inside them, and a result in 0..1024 whatever the breakpoints; that the first value
goes before the last where breakpoints out of order admit both is the model's reading (log entry 33). While a blend is active the base
share is b_from plus the truncated part k/250 of the way to the target, where k is one more than the count; it lies between the two, and
is the target in the pass in which k reaches 250. Without a blend it is the value of the Split Map (R34). The map speed is the larger
magnitude of the two reference speeds, and 0 while the Reference Record is ABSENT (R28); the load band follows trailer, tongue load and
the two thresholds in their order while the Load Record is FRESH, and is the fallback band otherwise (R29). -/
def Obligations.BaseShareFollowsMapAndBlend : Prop :=
  (∀ (m : Image) (k : Mode) (band : Nat) (v : Int),
     let y (i : Nat) := m.splitValue k band i
     let b (i : Nat) := m.breakpoint i
     (v ≤ b 0 → m.lookup k band v = y 0) ∧
     (b 0 < v → b 7 ≤ v → m.lookup k band v = y 7) ∧
     (∀ i < 7, b 0 < v → v < b 7 → (∀ j < i, b (j + 1) ≤ v) → v < b (i + 1) →
       b i ≤ v ∧
         m.lookup k band v = y i + (2 * ((y (i + 1) - y i) * (v - b i)) + (b (i + 1) - b i)) / (2 * (b (i + 1) - b i))) ∧
     0 ≤ m.lookup k band v ∧ m.lookup k band v ≤ 1024) ∧
  (∀ p : Snapshot,
     let target := p.image.lookup p.mode p.loadBand p.mapSpeed
     let k := p.blend.count + 1
     (p.blend.active = false → p.baseShare = target ∧ p.blendCount = p.blend.count) ∧
     (p.blend.active = true → p.blendCount = k ∧
       p.baseShare = p.blend.start + Int.tdiv ((target - p.blend.start) * (k : Int)) 250 ∧
       (k ≤ 250 → Within (p.baseShare - p.blend.start) (target - p.blend.start)) ∧
       (k = 250 → p.baseShare = target))) ∧
  (∀ p : Snapshot,
     let t1 := p.image.loadThreshold1
     let t2 := p.image.loadThreshold2
     (p.reference.freshness = .absent → p.mapSpeed = 0) ∧
     (p.reference.freshness ≠ .absent →
       p.mapSpeed = max (p.reference.speed.front.natAbs : Int) (p.reference.speed.rear.natAbs : Int)) ∧
     (p.load.freshness = .fresh →
       (p.load.trailer = false → p.loadBand = 0) ∧
       (p.load.trailer = true → p.load.tongue < t1 → p.loadBand = 1) ∧
       (p.load.trailer = true → t1 ≤ p.load.tongue → p.load.tongue < t2 → p.loadBand = 2) ∧
       (p.load.trailer = true → t1 ≤ p.load.tongue → t2 ≤ p.load.tongue → p.loadBand = 3)) ∧
     (p.load.freshness ≠ .fresh → p.loadBand = p.image.fallbackBand))

/-- The split: T_F5 is the floor of (D_acc·b + 512)/1024 and T_R5 the rest, so the parts sum to D_acc; both lie between 0
and D_acc for a share in 0..1024, with all of the demand at the front for 1024 and at the rear for 0 (R98). -/
def Obligations.SplitDividesAcceptedDemand : Prop :=
  ∀ p : Snapshot, 0 ≤ p.share → p.share ≤ 1024 →
    p.split.front = Int.fdiv (p.accepted * p.share + 512) 1024 ∧
    p.split.rear = p.accepted - p.split.front ∧
    p.split.front + p.split.rear = p.accepted ∧
    Within p.split.front p.accepted ∧ Within p.split.rear p.accepted ∧
    (p.share = 1024 → p.split.front = p.accepted ∧ p.split.rear = 0) ∧
    (p.share = 0 → p.split.front = 0 ∧ p.split.rear = p.accepted)

/-- Each window satisfies −12 000 ≤ lo ≤ 0 ≤ hi ≤ 12 000 (R92) and is closed where R89 says. Where it is not, it is the accepted
capabilities, halved for an IMPAIRED link (R88), with lo at 0 when regen permitted is clear or a REGEN CUT names the axle (R90), and
then confined by the smallest AXLE CAP that names the axle, if there is one (R91). -/
def Obligations.WindowsAdmitZero : Prop :=
  ∀ (p : Snapshot) (x : Axle), p.drive.get x ≤ 12000 → p.regen.get x ≤ 12000 →
    WindowLaw (p.window x) ∧
    (p.device ≠ .active ∨ p.link.get x = .acquire ∨ p.link.get x = .lost ∨ p.inverter.get x = .off ∨
      p.inverter.get x = .ready ∨ p.inverter.get x = .fault → p.window x = ⟨0, 0⟩) ∧
    (p.device = .active → (p.link.get x = .up ∨ p.link.get x = .impaired) →
      (p.inverter.get x = .run ∨ p.inverter.get x = .derate) →
      let cut : Prop :=
        p.demand.regenPermitted = false ∨ ∃ e ∈ p.stack, e.kind = .regenCut ∧ e.axle.names x = true
      let caps (e : Entry) : Prop := e.kind = .axleCap ∧ e.axle.names x = true
      ∀ lo hi : Int,
        hi = (if p.link.get x = .impaired then p.drive.get x / 2 else p.drive.get x : Nat) →
        (cut → lo = 0) → (¬cut → lo = -((if p.link.get x = .impaired then p.regen.get x / 2 else p.regen.get x : Nat) : Int)) →
        ((∀ e ∈ p.stack, ¬caps e) → p.window x = ⟨lo, hi⟩) ∧
        (∀ e ∈ p.stack, caps e → (∀ e' ∈ p.stack, caps e' → e.value ≤ e'.value) →
          p.window x = ⟨max lo (-(e.value : Int)), min hi e.value⟩))

/-- After clamp and transfer each torque lies in its window, their sum has the sign of D_acc or is 0 and is not larger in
magnitude, so the unserved torque is of the same kind; at most one axle transfers; an axle's part is clamped to its window and
what is left over is its excess (R99); it gives nothing away when its mode has no transfer flag, an AXLE CAP that names it carries
NO TRANSFER, or the other axle is in SPIN or has a closed window, and else its excess as far as the other axle has room for it
(R100 to R102). -/
def Obligations.TransferKeepsTorqueWithinDemand : Prop :=
  ∀ p : Snapshot, 0 ≤ p.share → p.share ≤ 1024 → (∀ x, WindowLaw (p.window x)) →
    (∀ x, (p.window x).lo ≤ p.fitted x ∧ p.fitted x ≤ (p.window x).hi) ∧
    Within (p.fitted .front + p.fitted .rear) p.accepted ∧
    p.unserved = p.accepted - (p.fitted .front + p.fitted .rear) ∧ Within p.unserved p.accepted ∧
    (p.transferred .front = 0 ∨ p.transferred .rear = 0) ∧
    (∀ x, (p.image.transferFlag p.mode = false ∨
        (∃ e ∈ p.stack, e.kind = .axleCap ∧ e.axle.names x = true ∧ e.noTransfer = true) ∨
        p.displayed.get x.other = .spin ∨ p.window x.other = ⟨0, 0⟩) → p.transferred x = 0) ∧
    let clamped (x : Axle) : Int := max (p.window x).lo (min (p.split.get x) (p.window x).hi)
    ∀ x : Axle,
      p.excess x = p.split.get x - clamped x ∧
      p.fitted x = clamped x + p.transferred x.other ∧
      let room : Int :=
        if 0 < p.excess x then (p.window x.other).hi - clamped x.other else (p.window x.other).lo - clamped x.other
      (p.image.transferFlag p.mode = true →
        (∀ e ∈ p.stack, e.kind = .axleCap → e.axle.names x = true → e.noTransfer = false) →
        p.displayed.get x.other ≠ .spin → p.window x.other ≠ ⟨0, 0⟩ →
        ((p.excess x).natAbs ≤ room.natAbs → p.transferred x = p.excess x) ∧
        (room.natAbs < (p.excess x).natAbs → p.transferred x = room))

/-- The power factor (R106): L_dis and L_chg are 1600 times the limits in force; f is the floor of the quotient of the limit by the
electrical power estimate in the direction that exceeds it, and 32 768 otherwise; it lies in 0..32 768, is below 32 768 exactly
when a limit is exceeded, is 0 for a limit of 0 with power in its direction, and 32 768 for an estimate of 0. The limits in force are
those of a FRESH Battery Limit Record, the smaller of them and the fallback limits for a STALE one, and the fallback limits for an
ABSENT one (R104). The estimate is the sum over the axles of the torque after transfer times the axle speed, by the motoring multiplier
when that product is 0 or positive and the generating one when it is negative, each truncated by 4096 (R105). -/
def Obligations.PowerFactorScalesToLimit : Prop :=
  ∀ p : Snapshot,
    let mech (x : Axle) : Int := p.fitted x * p.speed.get x
    let electric (x : Axle) : Int :=
      Int.tdiv (mech x * if 0 ≤ mech x then p.image.motoring x else p.image.generating x) 4096
    p.power = electric .front + electric .rear ∧
    (p.limits.freshness = .fresh → p.dischargeLimit = p.limits.discharge ∧ p.chargeLimit = p.limits.charge) ∧
    (p.limits.freshness = .stale →
      p.dischargeLimit = min p.limits.discharge p.image.fallbackDischarge ∧
        p.chargeLimit = min p.limits.charge p.image.fallbackCharge) ∧
    (p.limits.freshness = .absent →
      p.dischargeLimit = p.image.fallbackDischarge ∧ p.chargeLimit = p.image.fallbackCharge) ∧
    let dis : Int := 1600 * p.dischargeLimit
    let chg : Int := 1600 * p.chargeLimit
    let e := p.power
    (dis < e → p.factor = Int.fdiv (32768 * dis) e) ∧
    (e < -chg → p.factor = Int.fdiv (32768 * chg) (e.natAbs : Int)) ∧
    (-chg ≤ e → e ≤ dis → p.factor = 32768) ∧
    0 ≤ p.factor ∧ p.factor ≤ 32768 ∧ (p.factor < 32768 ↔ dis < e ∨ e < -chg) ∧
    (dis = 0 → 0 < e → p.factor = 0) ∧ (chg = 0 → e < 0 → p.factor = 0) ∧ (e = 0 → p.factor = 32768)

/-- Rate limiting (R108): with T the target T_x7, which is the truncation of T_x6 times the power factor by 32 768, has the sign of T_x6
or is 0, and is T_x6 itself for a factor of 32 768 (R107), prev the previous output and the steps of the current mode, each at least 1,
the bypass of a constrained axle whose target lies between 0 and prev, else the step chosen by the sign of prev, else the target. The
output of the pass is the result clamped to the axle's window (R109). -/
def Obligations.RateLimitFollowsSteps : Prop :=
  ∀ (p : Snapshot) (x : Axle),
    let t := p.scaled x
    let prev := p.prev.get x
    let up := p.image.rateUp p.mode
    let down := p.image.rateDown p.mode
    let bypass : Prop := (p.excess x ≠ 0 ∨ p.factor < 32768) ∧ ((0 ≤ t ∧ t ≤ prev) ∨ (prev ≤ t ∧ t ≤ 0))
    t = Int.tdiv (p.fitted x * p.factor) 32768 ∧ Within t (p.fitted x) ∧ (p.factor = 32768 → t = p.fitted x) ∧
    1 ≤ up ∧ 1 ≤ down ∧
    ∃ out, p.output x = max (p.window x).lo (min out (p.window x).hi) ∧
      (bypass → out = t) ∧
      (¬bypass → prev < t → 0 ≤ prev → out = min t (prev + up)) ∧
      (¬bypass → prev < t → prev < 0 → out = min t (prev + down)) ∧
      (¬bypass → t < prev → prev ≤ 0 → out = max t (prev - up)) ∧
      (¬bypass → t < prev → 0 < prev → out = max t (prev - down)) ∧
      (t = prev → out = t) ∧
      ((prev ≤ out ∧ out ≤ t) ∨ (t ≤ out ∧ out ≤ prev))

/-- The results of a pass whose snapshot is in its ranges are in the ranges of R16; each output lies in its axle's window
(R109), and outside ACTIVE both are 0. -/
def Obligations.PassResultsStayInRange : Prop :=
  ∀ p : Snapshot, SnapshotRanges p →
    RecordRanges p.compute.record ∧
    (∀ x, (p.window x).lo ≤ p.compute.record.output.get x ∧ p.compute.record.output.get x ≤ (p.window x).hi) ∧
    (p.device ≠ .active → p.compute.record.output = ⟨0, 0⟩) ∧
    0 ≤ p.compute.baseShare ∧ p.compute.baseShare ≤ 1024 ∧ p.compute.blendCount ≤ 250 ∧
    -24000 ≤ p.compute.heldDemand ∧ p.compute.heldDemand ≤ 24000

/-- The share: the value of the SHARE HOLD with the lowest level when the stack, in its order of R64, holds one; else the
base share and the correction, clamped to the mode's limits. A correction is made only while the Reference Record is FRESH,
from the excess of each axle: 0 in GRIP, in SLIP what the filtered slip, by the sign of this pass's accepted demand, exceeds the entry
threshold at the snapshot's reference speed by, and in SPIN twice that, saturated at 32 767 (R95 to R97). -/
def Obligations.ShareFollowsCorrectionOrHold : Prop :=
  ∀ p : Snapshot,
    (p.stack.Pairwise (fun x y => x.level < y.level) →
      ∀ e ∈ p.stack, e.kind = .shareHold → (∀ e' ∈ p.stack, e'.kind = .shareHold → e.level ≤ e'.level) →
        p.share = e.value) ∧
    ((∀ e ∈ p.stack, e.kind ≠ .shareHold) →
      let lo := p.image.shareLow p.mode
      let hi := p.image.shareHigh p.mode
      (hi < lo → p.share = lo) ∧ (lo ≤ hi → p.share = max lo (min (p.baseShare + p.correction) hi))) ∧
    (p.reference.freshness ≠ .fresh → p.correction = 0) ∧
    (p.reference.freshness = .fresh →
      p.correction = Int.tdiv ((p.slipExcess .rear - p.slipExcess .front) * p.image.slipGain p.mode) 256) ∧
    (∀ x,
      let slip : Int := (if 0 ≤ p.accepted then 1 else -1) * p.filtered.get x
      let enter : Int := p.image.baseThreshold x +
        Int.tdiv (((p.reference.speed.get x).natAbs : Int) * p.image.thresholdSlope x) 256
      (p.displayed.get x = .grip → p.slipExcess x = 0) ∧
      (p.displayed.get x = .slip → p.slipExcess x = max 0 (slip - enter)) ∧
      (p.displayed.get x = .spin → p.slipExcess x = min (2 * max 0 (slip - enter)) 32767) ∧
      0 ≤ p.slipExcess x ∧ (-32767 ≤ p.filtered.get x → p.filtered.get x ≤ 32767 → p.slipExcess x ≤ 32767))

/-! ## Records of the chassis frames -/

/-- DEMAND, by the alive counter and the record's freshness (R17, R19 to R21). Accepted: the first frame after a reset, any other
counter in STALE, the next counter in FRESH, and in LOST the next counter after a frame that resynchronised; the fields are taken,
the record is FRESH, the reference is the frame's counter, and both timers run. Discarded: a repeat has no effect; a wrong counter
in FRESH counts, and the third in a row makes the record STALE, latching DEMAND STALE; in LOST a frame out of sequence becomes the
new reference only. The mark of the resynchronisation is the model's form of R21 (log entry 10). In STALE with a run of 2, a wrong
counter that the command says came together with the 30 ms expiry is the third case of R22: it is discarded and the run becomes 0; the
operand, and that a wrong counter which comes later is accepted under R20, are the model's reading of the two rules (log entry 28). -/
def Obligations.DemandFramesFollowCounter : Prop :=
  (∀ (s : State) (src : Source) (torque : BitVec 16) (mode flags counter : Byte) (together : Bool),
     FrameTaken s src .ds →
     let c := counter.toNat % 16
     let taken : DemandRecord :=
       { torque := max (-24000) (min torque.toInt 24000),
         mode := if mode = 0#8 then .normal else if mode = 1#8 then .tow else if mode = 2#8 then .terrain
           else if mode = 3#8 then .rear else s.du.demand.mode,
         driveEnable := flags.getLsbD 0, regenPermitted := flags.getLsbD 1, freshness := .fresh }
     let accepts : Prop := exec (.demand src torque mode flags ⟨counter, together⟩) s = .next { s with
       du := { s.du with demand := taken, counterRef := some c, badRun := 0, resynced := false },
       cp := { s.cp with timers := { s.cp.timers with demand30 := true, demand130 := true } } }
     (s.du.demand.freshness = .absent → s.du.counterRef = none → accepts) ∧
     (∀ ref, s.du.counterRef = some ref → c ≠ ref →
       (s.du.demand.freshness = .stale → together = false ∨ s.du.badRun ≠ 2 ∨ c = (ref + 1) % 16 → accepts) ∧
       (s.du.demand.freshness = .fresh → c = (ref + 1) % 16 → accepts) ∧
       (s.du.demand.freshness = .lost → s.du.resynced = true → c = (ref + 1) % 16 → accepts))) ∧
  (∀ (s : State) (src : Source) (torque : BitVec 16) (mode flags counter : Byte) (together : Bool) (ref : Nat),
     FrameTaken s src .ds → s.du.counterRef = some ref →
     let c := counter.toNat % 16
     let out := exec (.demand src torque mode flags ⟨counter, together⟩) s
     (c = ref → out = .next s) ∧
     (s.du.demand.freshness = .stale → c ≠ ref → c ≠ (ref + 1) % 16 → together = true → s.du.badRun = 2 →
       out = .next { s with du := { s.du with badRun := 0 } }) ∧
     (s.du.demand.freshness = .fresh → c ≠ ref → c ≠ (ref + 1) % 16 → s.du.badRun < 2 →
       out = .next { s with du := { s.du with badRun := s.du.badRun + 1 } }) ∧
     (s.du.demand.freshness = .fresh → c ≠ ref → c ≠ (ref + 1) % 16 → s.du.badRun = 2 →
       out = .next (latched { s with
         du := { s.du with badRun := 0, demand := { s.du.demand with freshness := .stale } } } 1)) ∧
     (s.du.demand.freshness = .lost → c ≠ ref → (s.du.resynced = false ∨ c ≠ (ref + 1) % 16) →
       out = .next { s with du := { s.du with counterRef := some c, resynced := true } }))

/-- DEMAND_TIMER_30_MS and DEMAND_TIMER_130_MS: a running timer's expiry stops it, and makes a FRESH record STALE, or a STALE record
LOST, latching DEMAND STALE or DEMAND LOST (R18). LOAD, BATTERY_LIMIT and their timers: an accepted frame's clamped fields make
the record FRESH and start its timer; an expiry makes the record STALE, with LIMIT STALE for the battery limits and no event for
the load (R24, R103). An expiry of a demand timer in any other freshness changes nothing else (log entry 17); a stopped timer has
none (log entry 4). -/
def Obligations.RecordTimersAndLimitFrames : Prop :=
  (∀ s : State,
     (s.cp.timers.demand30 = true →
       let t := { s with cp := { s.cp with timers := { s.cp.timers with demand30 := false } } }
       (s.du.demand.freshness = .fresh → exec .demandTimer30Ms s = .next (latched { t with
         du := { s.du with demand := { s.du.demand with freshness := .stale } } } 1)) ∧
       (s.du.demand.freshness ≠ .fresh → exec .demandTimer30Ms s = .next t)) ∧
     (s.cp.timers.demand130 = true →
       let t := { s with cp := { s.cp with timers := { s.cp.timers with demand130 := false } } }
       (s.du.demand.freshness = .stale → exec .demandTimer130Ms s = .next (latched { t with
         du := { s.du with demand := { s.du.demand with freshness := .lost }, resynced := false } } 2)) ∧
       (s.du.demand.freshness ≠ .stale → exec .demandTimer130Ms s = .next t)) ∧
     (s.cp.timers.demand30 = false → exec .demandTimer30Ms s = .next s) ∧
     (s.cp.timers.demand130 = false → exec .demandTimer130Ms s = .next s)) ∧
  (∀ s : State,
     (∀ (src : Source) (tongue : BitVec 16) (flags : Byte), FrameTaken s src .tm →
       exec (.load src tongue flags) s = .next { s with
         du := { s.du with load := ⟨min tongue.toNat 2500, flags.getLsbD 0, .fresh⟩ },
         cp := { s.cp with timers := { s.cp.timers with load := true } } }) ∧
     (∀ (src : Source) (discharge charge : BitVec 16), FrameTaken s src .bm →
       exec (.batteryLimit src discharge charge) s = .next { s with
         ae := { s.ae with limits := ⟨min discharge.toNat 10000, min charge.toNat 10000, .fresh⟩ },
         cp := { s.cp with timers := { s.cp.timers with battery := true } } }) ∧
     (s.cp.timers.load = true → exec .loadTimer s = .next { s with
       du := { s.du with load := { s.du.load with freshness := .stale } },
       cp := { s.cp with timers := { s.cp.timers with load := false } } }) ∧
     (s.cp.timers.battery = true → exec .batteryLimitTimer s = .next (latched { s with
       ae := { s.ae with limits := { s.ae.limits with freshness := .stale } },
       cp := { s.cp with timers := { s.cp.timers with battery := false } } } 4)) ∧
     (s.cp.timers.load = false → exec .loadTimer s = .next s) ∧
     (s.cp.timers.battery = false → exec .batteryLimitTimer s = .next s))

/-! ## Slip estimation -/

/-- REFERENCE and REFERENCE_TIMER: an accepted frame's speeds make the record FRESH and start its timer; entering FRESH clears both
filters but for the override records; the expiry makes the record STALE, latches REFERENCE STALE and sets both overrides to off
(R39, R40, R55, R57). SLIP_OVERRIDE: while the record is FRESH, the override record of each axle that the selector names takes the
code; a value not listed, or a record that is not FRESH, leaves everything unchanged (R52). A stopped timer has no expiry (log
entry 4). -/
def Obligations.ReferenceRecordAndOverrides : Prop :=
  (∀ s : State,
     (∀ (src : Source) (front rear : BitVec 16), FrameTaken s src .sc →
       let cleared (a : SlipAxle) : SlipAxle :=
         if s.se.reference.freshness = .fresh then a
         else { taps := List.replicate 16 0, filtered := 0, saturated := false, auto := .grip, enterCount := 0,
                exitCount := 0, override := a.override }
       exec (.reference src front rear) s = .next { s with
         se := { reference := ⟨⟨front.toInt, rear.toInt⟩, .fresh⟩,
                 axle := ⟨cleared s.se.axle.front, cleared s.se.axle.rear⟩ },
         cp := { s.cp with timers := { s.cp.timers with reference := true } } }) ∧
     (s.cp.timers.reference = true → exec .referenceTimer s = .next (latched { s with
       se := { reference := { s.se.reference with freshness := .stale },
               axle := ⟨{ s.se.axle.front with override := none }, { s.se.axle.rear with override := none }⟩ },
       cp := { s.cp with timers := { s.cp.timers with reference := false } } } 3)) ∧
     (s.cp.timers.reference = false → exec .referenceTimer s = .next s)) ∧
  (∀ (s : State) (src : Source) (axle code : Byte), FrameTaken s src .sc →
     let out := exec (.slipOverride src axle code) s
     let front : Bool := decide (axle = 1#8) || decide (axle = 3#8)
     let rear : Bool := decide (axle = 2#8) || decide (axle = 3#8)
     let put (named : Bool) (a : SlipAxle) (v : Option SlipState) : SlipAxle :=
       if named then { a with override := v } else a
     (s.se.reference.freshness = .fresh → (1 ≤ axle.toNat ∧ axle.toNat ≤ 3) →
       ∀ v, (code = 0#8 ∧ v = none) ∨ (code = 1#8 ∧ v = some .grip) ∨ (code = 2#8 ∧ v = some .slip) ∨
           (code = 3#8 ∧ v = some .spin) →
         out = .next { s with se := { s.se with
           axle := ⟨put front s.se.axle.front v, put rear s.se.axle.rear v⟩ } }) ∧
     (s.se.reference.freshness ≠ .fresh ∨ axle = 0#8 ∨ 4 ≤ axle.toNat ∨ 4 ≤ code.toNat → out = .next s))

/-- The filter: the delay line shifts by one and keeps 16 samples; the filtered slip is the sum of the products over the
first N taps, N in 4..16, divided by 32 768, rounded half up and saturated at 32 767; the marker says whether it was
saturated; the state machine's part is unchanged; and with samples of at most 32 767 in magnitude the sum never leaves the
36-bit accumulator (R44 to R46). -/
def Obligations.FilterRoundsAndSaturates : Prop :=
  (∀ (a : SlipAxle) (m : Image) (x : Axle) (r : Int), a.taps.length = 16 →
     let taps := r :: a.taps.take 15
     let sum : Int := ∑ k ∈ Finset.range (m.filterLength x), m.coefficient x k * taps.getD k 0
     let q := Int.fdiv (sum + 16384) 32768
     let b := a.filter m x r
     4 ≤ m.filterLength x ∧ m.filterLength x ≤ 16 ∧
     b.taps = taps ∧ b.taps.length = 16 ∧
     q = Int.fdiv (2 * sum + 32768) 65536 ∧
     (-32767 ≤ q → q ≤ 32767 → b.filtered = q ∧ b.saturated = false) ∧
     (32767 < q → b.filtered = 32767 ∧ b.saturated = true) ∧
     (q < -32767 → b.filtered = -32767 ∧ b.saturated = true) ∧
     b.auto = a.auto ∧ b.enterCount = a.enterCount ∧ b.exitCount = a.exitCount ∧ b.override = a.override) ∧
  (∀ (m : Image) (x : Axle) (taps : List Int), taps.length = 16 → (∀ r ∈ taps, -32767 ≤ r ∧ r ≤ 32767) →
     -17179344896 ≤ filterSum m x taps ∧ filterSum m x taps ≤ 17179344896)

/-- The thresholds (R47): the entry threshold is the base plus the truncated product of the reference speed's magnitude and the
slope over 256; exit, entry and spin threshold stand in that order; for a 16-bit reference speed the bounds of the rule hold. The
automatic slip state on an effective slip and the three thresholds (R49 to R51): four steps in a row above the entry threshold to
SLIP, at once to SPIN, back to SLIP at the entry threshold, eight steps in a row below the exit threshold to GRIP; the filter and
the override are unchanged. -/
def Obligations.SlipStatesFollowThresholds : Prop :=
  (∀ (m : Image) (x : Axle) (ref : Int),
     let enter := enterThreshold m x ref
     let spin := spinThreshold m x ref
     let exit := exitThreshold m x ref
     enter = m.baseThreshold x + Int.tdiv ((ref.natAbs : Int) * m.thresholdSlope x) 256 ∧
     spin = enter + m.spinMargin x ∧
     (m.hysteresis x ≤ enter → exit = enter - m.hysteresis x) ∧ (enter < m.hysteresis x → exit = 0) ∧
     0 ≤ exit ∧ exit ≤ enter ∧ enter ≤ spin ∧
     (-32768 ≤ ref → ref ≤ 32767 → enter ≤ 65407 ∧ spin ≤ 98174)) ∧
  (∀ (a : SlipAxle) (slip enter spin exit : Int), exit ≤ enter → enter ≤ spin →
     let b := a.classify slip enter spin exit
     (a.auto = .grip → slip ≤ enter → b = { a with enterCount := 0 }) ∧
     (a.auto = .grip → enter < slip → a.enterCount < 3 → b = { a with enterCount := a.enterCount + 1 }) ∧
     (a.auto = .grip → enter < slip → a.enterCount = 3 → b = { a with auto := .slip, enterCount := 0 }) ∧
     (a.auto = .slip → spin < slip → b = { a with auto := .spin, exitCount := 0 }) ∧
     (a.auto = .slip → exit ≤ slip → slip ≤ spin → b = { a with exitCount := 0 }) ∧
     (a.auto = .slip → slip < exit → a.exitCount < 7 → b = { a with exitCount := a.exitCount + 1 }) ∧
     (a.auto = .slip → slip < exit → a.exitCount = 7 → b = { a with auto := .grip, exitCount := 0 }) ∧
     (a.auto = .spin → slip ≤ enter → b = { a with auto := .slip, exitCount := 0 }) ∧
     (a.auto = .spin → enter < slip → b = a))

/-! ## The intervention lists -/

/-- The level of a request: the frame's level clamped into the range that the Source Table gives its source, each bound first
clamped to 0..7, and the range of the role where the bounds are the wrong way round: 4..7 for TM, 0..5 for SC (R62). In SERVICE and
SAFE HOLD every INTERVENTION frame that reaches the IA is answered REFUSED WRONG STATE, and in STANDBY and ACTIVE one with an unknown
action code REFUSED BAD KIND; the answer goes to the frame's source with its tag and its clamped level, to a full answer queue too, and
the lists are unchanged (R61, R77, R143). -/
def Obligations.InterventionLevelsAndRefusals : Prop :=
  (∀ (s : State) (src : Source) (f : InterventionFields) (c : ChassisConfig) (e : SourceEntry),
     s.chassis = some c → c.table[src.val]? = some e → (s.bound src .sc = true ∨ s.bound src .tm = true) →
     let lo := min e.lower 7
     let hi := min e.upper 7
     let asked := f.level.toNat
     (lo ≤ hi → s.levelOf src f = max lo (min asked hi)) ∧
     (hi < lo → s.bound src .tm = true → s.levelOf src f = max 4 (min asked 7)) ∧
     (hi < lo → s.bound src .tm = false → s.levelOf src f = min asked 5) ∧
     s.levelOf src f ≤ 7) ∧
  (∀ (s : State) (src : Source) (f : InterventionFields), (FrameTaken s src .sc ∨ FrameTaken s src .tm) →
     let refused (code : AnswerCode) :=
       answered s s.ia [{ dest := src, tag := f.tag, code := code, level := s.levelOf src f, place := .none }]
     (s.osc.device = .service ∨ s.osc.device = .safeHold →
       (∀ k, exec (requestOf k src f) s = .next (refused .refusedWrongState)) ∧
       exec (.release src f) s = .next (refused .refusedWrongState) ∧
       (∀ action : Byte, 5 ≤ action.toNat → exec (.refusedBadKind src action f) s = .next (refused .refusedWrongState))) ∧
     (s.osc.device = .standby ∨ s.osc.device = .active →
       ∀ action : Byte, 5 ≤ action.toNat → exec (.refusedBadKind src action f) s = .next (refused .refusedBadKind)))

/-- A new request of any of the four kinds, better than the top of a stack with room or finding the stack empty, is pushed:
the entry of R63 is the new top, ACCEPTED is answered, to a full answer queue too, and nothing else changes (R63, R67, R77, R143). -/
def Obligations.BetterRequestIsPushed : Prop :=
  ∀ (k : InterventionKind) (s : State) (src : Source) (f : InterventionFields), InterventionTaken s src →
    NotHeld s src f.tag → s.ia.stack.length < 4 → (∀ top ∈ s.ia.stack.head?, s.levelOf src f < top.level) →
    let e := formedEntry k src f (s.levelOf src f) s.ia.arrivals
    exec (requestOf k src f) s = .next (answered s
      { stack := e :: s.ia.stack, waiting := s.ia.waiting, arrivals := s.ia.arrivals + 1 }
      [answerTo e .accepted .stack])

/-- A new request better than the top of a full stack takes the top; the bottom entry goes to its place in the Pending List, in
a full one pushing out the last entry if it is better, and is else lost; the answers come in the order of R78, to a full answer queue
too, and INTERVENTION DROPPED latches when an entry is lost (R67 to R69, R78, R143). -/
def Obligations.FullStackDisplacesBottom : Prop :=
  ∀ (k : InterventionKind) (s : State) (src : Source) (f : InterventionFields) (bottom : Entry), InterventionTaken s src →
    NotHeld s src f.tag → ListLaws s.ia → s.ia.stack.length = 4 → s.ia.stack.getLast? = some bottom →
    (∀ top ∈ s.ia.stack.head?, s.levelOf src f < top.level) →
    let e := formedEntry k src f (s.levelOf src f) s.ia.arrivals
    let lists (w : List Entry) : Arbiter :=
      { stack := e :: s.ia.stack.dropLast, waiting := w, arrivals := s.ia.arrivals + 1 }
    let out := exec (requestOf k src f) s
    ∃ w, w.Pairwise (fun x y => x.level < y.level ∨ (x.level = y.level ∧ x.order < y.order)) ∧
      (s.ia.waiting.length < 6 → w.Perm (bottom :: s.ia.waiting) ∧
        out = .next (answered s (lists w) [answerTo e .accepted .stack, answerTo bottom .displaced .pending])) ∧
      (∀ last, s.ia.waiting.length = 6 → s.ia.waiting.getLast? = some last → bottom.level < last.level →
        w.Perm (bottom :: s.ia.waiting.dropLast) ∧
        out = .next (latched (answered s (lists w)
          [answerTo e .accepted .stack, answerTo bottom .displaced .pending, answerTo last .dropped .none]) 14)) ∧
      (∀ last, s.ia.waiting.length = 6 → s.ia.waiting.getLast? = some last → last.level ≤ bottom.level →
        w = s.ia.waiting ∧
        out = .next (latched (answered s (lists w) [answerTo e .accepted .stack, answerTo bottom .dropped .none]) 14))

/-- A new request no better than the top goes to its place in the Pending List, answered PENDING; in a full list it pushes out
the last entry if it is better, and is else refused with REFUSED FULL, changing no list; the answers go to a full answer queue too (R67,
R69, R78, R143). -/
def Obligations.WorseRequestWaitsOrIsRefused : Prop :=
  ∀ (k : InterventionKind) (s : State) (src : Source) (f : InterventionFields) (top : Entry), InterventionTaken s src →
    NotHeld s src f.tag → ListLaws s.ia → s.ia.stack.head? = some top → top.level ≤ s.levelOf src f →
    let e := formedEntry k src f (s.levelOf src f) s.ia.arrivals
    let lists (w : List Entry) : Arbiter := { stack := s.ia.stack, waiting := w, arrivals := s.ia.arrivals + 1 }
    let out := exec (requestOf k src f) s
    (∃ w, w.Pairwise (fun x y => x.level < y.level ∨ (x.level = y.level ∧ x.order < y.order)) ∧
      (s.ia.waiting.length < 6 → w.Perm (e :: s.ia.waiting) ∧
        out = .next (answered s (lists w) [answerTo e .pending .pending])) ∧
      (∀ last, s.ia.waiting.length = 6 → s.ia.waiting.getLast? = some last → e.level < last.level →
        w.Perm (e :: s.ia.waiting.dropLast) ∧
        out = .next (latched (answered s (lists w)
          [answerTo e .pending .pending, answerTo last .dropped .none]) 14))) ∧
    (∀ last, s.ia.waiting.length = 6 → s.ia.waiting.getLast? = some last → last.level ≤ e.level →
      out = .next (answered s s.ia [answerTo e .refusedFull .none]))

/-- A request with the identity, kind and clamped level of an entry updates that entry where it stands: value, axle, NO TRANSFER
flag and hold time, and UPDATED with its place is answered, to a full answer queue too; every other entry is unchanged (R66, R70,
R143). -/
def Obligations.RefreshUpdatesEntryInPlace : Prop :=
  ∀ (s : State) (src : Source) (f : InterventionFields) (e : Entry), InterventionTaken s src → ListLaws s.ia →
    e ∈ s.ia.stack ++ s.ia.waiting → e.source = src → e.tag = f.tag → e.level = s.levelOf src f →
    let put (x : Entry) : Entry := if x = e then formedEntry e.kind src f e.level e.order else x
    exec (requestOf e.kind src f) s = .next (answered s
      { stack := s.ia.stack.map put, waiting := s.ia.waiting.map put, arrivals := s.ia.arrivals }
      [answerTo e .updated (if e ∈ s.ia.stack then .stack else .pending)])

/-- A request with the identity of an entry but another kind or clamped level does what a release of the entry and then the
request would, apart from the RELEASED answer, which is not given: the same lists, the answers of both in their order, whatever the
answer queue holds already, and INTERVENTION DROPPED where the request latches it (R66, R71, R143). -/
def Obligations.ReplacementIsRemovalAndNewRequest : Prop :=
  ∀ (k : InterventionKind) (s : State) (src : Source) (f : InterventionFields) (e : Entry), InterventionTaken s src →
    ListLaws s.ia → e ∈ s.ia.stack ++ s.ia.waiting → e.source = src → e.tag = f.tag →
    (e.kind ≠ k ∨ e.level ≠ s.levelOf src f) →
    ∃ (left lists : Arbiter) (admitted placed : List Answer) (dropped : Bool), admitted.length ≤ 1 ∧ placed.length ≤ 3 ∧
      ∀ queued : List Answer,
        let s := { s with cp := { s.cp with answers := queued } }
        let t := answered s left (answerTo e .released .none :: admitted)
        exec (.release src f) s = .next t ∧
        exec (requestOf k src f) t = .next (latchedIf (answered t lists placed) dropped 14) ∧
        exec (requestOf k src f) s = .next (latchedIf (answered s lists (admitted ++ placed)) dropped 14)

/-- RELEASE and HOLD_EXPIRY of an entry: it leaves its list and is answered RELEASED or EXPIRED, an expiry latching
INTERVENTION DROPPED; when it was the top, the first pending entry is admitted if it is better than the new top or the stack is
empty, and is answered ACCEPTED after it; every other entry keeps its position; the answers go to a full answer queue too, which
discards its oldest for them (R72, R73, R75, R78, R143). A release of an identity that neither list holds is answered NOT FOUND, with
level 8 and place NONE (R66, R77); an expiry of one, which no timer gives, changes nothing in the model (log entry 4). -/
def Obligations.RemovalAdmitsFirstPending : Prop :=
  (∀ (s : State) (src : Source) (f : InterventionFields) (e : Entry), ListLaws s.ia →
     e ∈ s.ia.stack ++ s.ia.waiting → e.source = src → e.tag = f.tag →
     let without (l : List Entry) := l.filter (fun x => x ≠ e)
     let happens (stack waiting : List Entry) (admitted : List Answer) : Prop :=
       let ia : Arbiter := { stack := stack, waiting := waiting, arrivals := s.ia.arrivals }
       (InterventionTaken s src →
         exec (.release src f) s = .next (answered s ia (answerTo e .released .none :: admitted))) ∧
       exec (.holdExpiry src f.tag) s = .next (latched (answered s ia (answerTo e .expired .none :: admitted)) 14)
     (s.ia.stack.head? ≠ some e → happens (without s.ia.stack) (without s.ia.waiting) []) ∧
     (∀ below, s.ia.stack = e :: below → s.ia.waiting = [] → happens below [] []) ∧
     (∀ below first rest, s.ia.stack = e :: below → s.ia.waiting = first :: rest →
       ((∀ top ∈ below.head?, first.level < top.level) →
         happens (first :: below) rest [answerTo first .accepted .stack]) ∧
       (∀ top ∈ below.head?, top.level ≤ first.level → happens below (first :: rest) []))) ∧
  (∀ (s : State) (src : Source) (f : InterventionFields), NotHeld s src f.tag →
     (InterventionTaken s src → exec (.release src f) s = .next (answered s s.ia
       [{ dest := src, tag := f.tag, code := .notFound, level := 8, place := .none }])) ∧
     exec (.holdExpiry src f.tag) s = .next s)

/-- The answer queue keeps the newest eight answers in their order, apart from an answer in transmission at its head, which is
never discarded (R143). -/
def Obligations.AnswerQueueKeepsNewestEight : Prop :=
  ∀ (p : Port) (l : List Answer), p.answers.length ≤ 8 →
    let q := p.addAnswers l
    q = { p with answers := q.answers } ∧ q.answers.length = min 8 (p.answers.length + l.length) ∧
    ((∀ t ∈ p.transmission, t.origin ≠ .answer) → q.answers <:+ p.answers ++ l) ∧
    (∀ t head rest, p.transmission = some t → t.origin = .answer → p.answers = head :: rest →
      ∃ kept, q.answers = head :: kept ∧ kept <:+ rest ++ l)

/-! ## Axle links -/

/-- REPORT_FRAME, a good report frame in normal operation: its speed becomes the latest axle speed and, while the Reference Record is
FRESH, a slip sample: the speed less the reference speed, saturated at 32 767, goes through the filter, and the slip state follows the
filtered slip by the sign of the published accepted demand, against the thresholds at the reference speed; the onsets latch FILTER
SATURATED and SLIP ENTERED. A capability falls at once and rises only to the lower of two reports in a row; a far-error flag counts;
the frame is a good result of its slot, and slot 7 settles the superframe; nothing else changes (R41, R42, R46 to R49, R82, R83, R118
to R123, R128, R129).
What makes two received words equal at slot 7 is the model's reading (log entry 34). -/
def Obligations.GoodReportIsHandedOn : Prop :=
  ∀ (s : State) (x : Axle) (bytes : List Byte),
    let l := s.links.get x
    let a := s.se.axle.get x
    let c := s.cu.get x
    let m := s.image.getD ⟨[], Sectors.all true⟩
    let word (n : Nat) : BitVec 16 := bytes.getD n 0#8 ++ bytes.getD (n + 1) 0#8
    let speed := (word 1).toInt
    let drive := min (word 3).toNat 12000
    let regen := min (word 5).toNat 12000
    let sampled : Bool := s.se.reference.freshness == .fresh
    let ref := s.se.reference.speed.get x
    let f := a.filter m x (max (-32767) (min (speed - ref) 32767))
    let b := f.classify ((if 0 ≤ s.ae.record.accepted then 1 else -1) * f.filtered) (enterThreshold m x ref)
      (spinThreshold m x ref) (exitThreshold m x ref)
    let t := { s with
      links := s.links.set x { l with
        speed := speed,
        farErrors := if (bytes.getD 0 0#8).getLsbD 4 then min (l.farErrors + 1) 255 else l.farErrors },
      cu := s.cu.set x { c with
        drive := min drive c.prevDrive, prevDrive := drive, regen := min regen c.prevRegen, prevRegen := regen },
      se := { s.se with axle := s.se.axle.set x (if sampled then b else a) } }
    l.slot = .waiting → l.loop = .opened → GoodReport l bytes →
    exec (.reportFrame x bytes) s = .next (afterGoodSlot
      (latchedIf (latchedIf t (sampled && f.saturated && !a.saturated) 11)
        (sampled && a.auto == .grip && b.auto == .slip) 10) x ((bytes.getD 0 0#8).getLsbD 3))

/-- REPORT_FRAME in a far loopback: a good frame is a good result of its slot, gives its maintenance bit and its far-error flag, and
gives no speed, no sample and no capability; slot 7 settles the superframe; once acknowledge is verified, a frame that does not echo
the torque field sent in its slot is a bad result. In a near loopback the inverter's frames are ignored (R118 to R123, R128, R129,
R131, R132).
What makes two received words equal at slot 7 is the model's reading (log entry 34). -/
def Obligations.LoopedLinksTakeNoReportData : Prop :=
  ∀ (s : State) (x : Axle) (bytes : List Byte),
    let l := s.links.get x
    let b0 := bytes.getD 0 0#8
    let echo : Prop := bytes.getD 3 0#8 = l.sentFrame.getD 1 0#8 ∧ bytes.getD 4 0#8 = l.sentFrame.getD 2 0#8
    (l.slot = .waiting → l.loop = .far → GoodReport l bytes → (l.ackVerified = true → echo) →
      exec (.reportFrame x bytes) s = .next (afterGoodSlot { s with links := s.links.set x { l with
        farErrors := if b0.getLsbD 4 then min (l.farErrors + 1) 255 else l.farErrors } } x (b0.getLsbD 3))) ∧
    (l.slot = .waiting → l.loop = .far → l.ackVerified = true → ¬echo → bytes.length = 8 →
      exec (.reportFrame x bytes) s = exec (.slotEnd x) s) ∧
    (l.loop = .nearTransparent ∨ l.loop = .nearOpaque → exec (.reportFrame x bytes) s = .next s)

/-- REPORT_FRAME: a frame that fails the check value or the echoed number is a bad result, as a slot without a frame is; further
frames of a slot, and frames of a slot in which a loopback transition was made, are ignored. That a frame which began in the slot before
is judged in the slot of its last byte is the model's reading (log entry 31). SLOT_END without a frame is a bad
result: runs, near error counter, link state and superframe follow; entry into IMPAIRED latches LINK IMPAIRED, entry into LOST
latches LINK LOST and clears the axle's capabilities and inverter state record, while a loopback is closed too, which is the model's
reading (log entry 29). A settled slot ends without effect; one in which a loopback transition was made yields no result, and no
previous complete word at slot 7 (R84, R116, R118, R120 to R123, R128, R130). -/
def Obligations.MissingAndBadReportsCountBad : Prop :=
  (∀ (s : State) (x : Axle) (bytes : List Byte), bytes.length = 8 →
     let l := s.links.get x
     (l.slot = .waiting → (l.loop = .opened ∨ l.loop = .far) → ¬GoodReport l bytes →
       exec (.reportFrame x bytes) s = exec (.slotEnd x) s) ∧
     (l.slot = .settled ∨ l.slot = .noResult → exec (.reportFrame x bytes) s = .next s)) ∧
  (∀ (s : State) (x : Axle),
     let l := s.links.get x
     (l.slot = .waiting → exec (.slotEnd x) s = .next (afterBadSlot s x)) ∧
     (l.slot = .settled → exec (.slotEnd x) s = .next s) ∧
     (l.slot = .noResult → l.complete = false → exec (.slotEnd x) s = .next { s with
       links := s.links.set x { l with
         slot := .settled, prevWord := if l.position = 7 then none else l.prevWord } }))

/-- The settlement of a superframe at a good report frame of slot 7 in OPEN or FAR: a complete word equal to the previous
complete word is verified, and sets the axle's inverter state record, in FAR acknowledge verified too, INVERTER FAULT latching
on a change to FAULT; any other complete word becomes the previous one; an incomplete superframe leaves none (R85, R86, R128,
R129). That all eight bits of a word are compared is the model's reading (log entry 34). -/
def Obligations.CompleteSuperframesVerifyWord : Prop :=
  ∀ (s t : State) (x : Axle) (bytes : List Byte),
    let l := s.links.get x
    let w : Byte := if (bytes.getD 0 0#8).getLsbD 3 then l.received ||| 0x80#8 else l.received
    let inverter : InverterState :=
      if w.toNat % 8 = 0 then .off else if w.toNat % 8 = 1 then .ready else if w.toNat % 8 = 2 then .run
      else if w.toNat % 8 = 3 then .derate else .fault
    l.slot = .waiting → l.position = 7 → GoodReport l bytes →
    (l.loop = .opened ∨ (l.loop = .far ∧ (l.ackVerified = true →
      bytes.getD 3 0#8 = l.sentFrame.getD 1 0#8 ∧ bytes.getD 4 0#8 = l.sentFrame.getD 2 0#8))) →
    exec (.reportFrame x bytes) s = .next t →
    (l.complete = true → l.prevWord = some w →
      (t.links.get x).prevWord = some w ∧ (t.cu.get x).inverter = inverter ∧
      (t.links.get x).ackVerified = (l.loop == .far && w.getLsbD 3) ∧
      (t.eu.events.getLsbD 9 = true ↔
        s.eu.events.getLsbD 9 = true ∨ (inverter = .fault ∧ (s.cu.get x).inverter ≠ .fault))) ∧
    (l.complete = true → l.prevWord ≠ some w →
      (t.links.get x).prevWord = some w ∧ (t.cu.get x).inverter = (s.cu.get x).inverter ∧
      (t.links.get x).ackVerified = l.ackVerified ∧ t.eu.events.getLsbD 9 = s.eu.events.getLsbD 9) ∧
    (l.complete = false →
      (t.links.get x).prevWord = none ∧ (t.cu.get x).inverter = (s.cu.get x).inverter ∧
      (t.links.get x).ackVerified = l.ackVerified ∧ t.eu.events.getLsbD 9 = s.eu.events.getLsbD 9) ∧
    (t.links.get x.other) = s.links.get x.other ∧ (t.cu.get x.other) = s.cu.get x.other

/-- SLOT_OPENING with no near loopback closed opens the next slot on both links at once, sends the command frames built from the state
that holds then, and changes nothing else. A slot not yet settled is first ended as SLOT_END ends it, which is how the
model reads the order of the two (R114, R115, R125 to R127; log entry 6). -/
def Obligations.SlotOpeningSendsCommandFrames : Prop :=
  ∀ (s : State) (e1 e2 : BitVec 32),
    ((∀ x, (s.links.get x).loop = .opened ∨ (s.links.get x).loop = .far) → (∀ x, (s.links.get x).slot = .settled) →
      let next (x : Axle) :=
        openedLink (s.links.get x) s.osc.device s.du.demand.regenPermitted (s.ae.record.output.get x)
      exec (.slotOpening e1 e2) s = .next { s with links := ⟨next .front, next .rear⟩ }) ∧
    (∀ t u, (∀ x, (s.links.get x).slot ≠ .none) → exec (.slotEnd .front) s = .next t → exec (.slotEnd .rear) t = .next u →
      exec (.slotOpening e1 e2) s = exec (.slotOpening e1 e2) u)

/-- SLOT_OPENING, in every loopback state: the next slot opens on both links, and an axle in a near loopback takes the slot's own
command frame within the slot, a good result when it returned intact and a bad one otherwise; a word it settles is not handed on (R118,
R129, R131). On a sound path the frame returns intact; it does not when its frame number, its torque field or its check value alone is
spoiled. The error operand is the model's form of an unsound path (log entry 13), and that a
loss in a loopback clears the capabilities is its reading (log entry 29). -/
def Obligations.NearLoopbackTakesOwnFrame : Prop :=
  ∀ (s : State) (e1 e2 : BitVec 32),
    let opened (x : Axle) :=
      openedLink (s.links.get x) s.osc.device s.du.demand.regenPermitted (s.ae.record.output.get x)
    ((∀ x, (s.links.get x).slot = .settled) →
      ∃ t u, TakesOwnFrame { s with links := ⟨opened .front, opened .rear⟩ } .front e1 t ∧ TakesOwnFrame t .rear e2 u ∧
        exec (.slotOpening e1 e2) s = .next u) ∧
    (∀ x,
      let l := opened x
      Intact l (returnedFrame l 0#32) ∧
      (∀ e : BitVec 32, e.extractLsb' 24 3 ≠ 0#3 ∨ e.extractLsb' 8 16 ≠ 0#16 → ¬Intact l (returnedFrame l e)) ∧
      (∀ e : BitVec 32, e ≠ 0#32 → e.toNat < 256 → ¬Intact l (returnedFrame l e)))

/-- SET_LOOPBACK in SERVICE makes the loopback transition of the axle named: the kind, ACQUIRE with both runs 0, no previous
complete word, acknowledge verified clear, the superframe incomplete, and no result from a slot in progress; a value not
listed is answered BAD ADDRESS, and another device state WRONG STATE (R130, R155, R156). READ_LINK_COUNTERS returns the near and
far error counters, the loopback state and the acknowledge-verified flag of the axle named and sets both counters to 0; a value
that names no axle is answered BAD ADDRESS (R124, R155; payload of section 8.7.4). -/
def Obligations.LoopbackAndCounterServices : Prop :=
  (∀ (s : State) (r : Request), Begins s 0x21#8 r →
     let kind (b : Byte) : Option LoopState :=
       if b = 0#8 then some .opened else if b = 1#8 then some .nearTransparent else if b = 2#8 then some .nearOpaque
       else if b = 3#8 then some .far else none
     (∀ x k, s.osc.device = .service → ((x = .front ∧ r.params.getD 0 0#8 = 1#8) ∨ (x = .rear ∧ r.params.getD 0 0#8 = 2#8)) →
       kind (r.params.getD 1 0#8) = some k →
       let l := s.links.get x
       exec .setLoopback s = .next { afterResponse s r .done noPayload with links := s.links.set x { l with
         loop := k, state := .acquire, goodRun := 0, badRun := 0, prevWord := none, ackVerified := false, complete := false,
         slot := if l.slot = .waiting then .noResult else l.slot } }) ∧
     (s.osc.device = .service →
       (r.params.getD 0 0#8 ≠ 1#8 ∧ r.params.getD 0 0#8 ≠ 2#8) ∨ kind (r.params.getD 1 0#8) = none →
       exec .setLoopback s = .next (afterResponse s r .badAddress noPayload)) ∧
     (s.osc.device ≠ .service → exec .setLoopback s = .next (afterResponse s r .wrongState noPayload))) ∧
  (∀ (s : State) (r : Request), Begins s 0x20#8 r →
     (∀ x, ((x = .front ∧ r.params.getD 0 0#8 = 1#8) ∨ (x = .rear ∧ r.params.getD 0 0#8 = 2#8)) →
       let l := s.links.get x
       let loop : Byte := match l.loop with
         | .opened => 0#8
         | .nearTransparent => 1#8
         | .nearOpaque => 2#8
         | .far => 3#8
       exec .readLinkCounters s = .next
         { afterResponse s r .done
             [BitVec.ofNat 8 l.nearErrors, BitVec.ofNat 8 l.farErrors, loop, if l.ackVerified then 1#8 else 0#8, 0#8, 0#8] with
           links := s.links.set x { l with nearErrors := 0, farErrors := 0 } }) ∧
     (r.params.getD 0 0#8 ≠ 1#8 → r.params.getD 0 0#8 ≠ 2#8 →
       exec .readLinkCounters s = .next (afterResponse s r .badAddress noPayload)))

/-! ## Chassis port and events -/

/-- The checks of R136 to R138. A frame of a row whose source no role of its kind is bound to has no effect but FRAME REJECTED.
FRAME_REJECTED: a frame taken into the checks whose kind, source or length they refuse latches FRAME REJECTED and nothing else;
one not taken into them, as any frame in INIT or while the port is SILENT, has no effect. A frame that passes is handed to its owner
(R139), which is how the model takes this row on such a frame (log entry 16): as the command that its bytes spell by the layout of its
kind, most significant byte first (R148, section 8.7.1). Bytes of another length than the kind's, or of a kind above 7, spell none. -/
def Obligations.PortChecksRejectFrames : Prop :=
  (∀ (src : Source) (b0 b1 b2 b3 b4 b5 b6 b7 : Byte),
    let fields : InterventionFields := { tag := b1, level := b2, axleByte := b3, value := b4 ++ b5, hold := b6 }
    decodeFrame 0 src [b0, b1, b2, b3, b4] = some (.demand src (b0 ++ b1) b2 b3 ⟨b4, false⟩) ∧
    decodeFrame 1 src [b0, b1, b2, b3] = some (.reference src (b0 ++ b1) (b2 ++ b3)) ∧
    decodeFrame 2 src [b0, b1, b2, b3] = some (.batteryLimit src (b0 ++ b1) (b2 ++ b3)) ∧
    decodeFrame 3 src [b0, b1, b2] = some (.load src (b0 ++ b1) b2) ∧
    decodeFrame 4 src [b0, b1, b2, b3, b4, b5, b6] = some (
      if b0 = 0#8 then .release src fields else if b0 = 1#8 then .axleCap src fields
      else if b0 = 2#8 then .totalCap src fields else if b0 = 3#8 then .shareHold src fields
      else if b0 = 4#8 then .regenCut src fields else .refusedBadKind src b0 fields) ∧
    decodeFrame 5 src [b0, b1] = some (.slipOverride src b0 b1) ∧
    decodeFrame 6 src [b0, b1, b2] = some (
      if b0 = 1#8 then .setMask src (b1 ++ b2) else if b0 = 2#8 then .acknowledge src (b1 ++ b2)
      else .eventControlOtherOperation src b0 (b1 ++ b2)) ∧
    decodeFrame 7 src [b0, b1, b2, b3, b4, b5, b6, b7] = some (.serviceRequest src b0 [b1, b2, b3, b4, b5, b6, b7])) ∧
  (∀ (kind : Nat) (src : Source) (data : List Byte), (∀ row ∈ kindTable[kind]?, data.length ≠ row.2) →
    decodeFrame kind src data = none) ∧
  ∀ s : State,
    (s.osc.device = .init ∨ s.cp.state = .silent → ∀ f : CanFrame, exec (.frameRejected f) s = .next s) ∧
    (∀ (kind : Nat) (src : Source) (data : List Byte) (c : Instr),
      decodeFrame kind src data = some c ∨ (kind = 0 ∧ ∃ t m f k, c = .demand src t m f ⟨k, true⟩) →
      (s.cp.state = .silent ∨ s.osc.device = .init → exec c s = .next s) ∧
      (s.cp.state = .on → s.osc.device ≠ .init →
        (∀ row ∈ kindTable[kind]?, ∀ r ∈ row.1, s.bound src r = false) → exec c s = .next (latched s 15))) ∧
    (∀ (f : CanFrame) (c : ChassisConfig), f.wellFormed = true → s.chassis = some c →
      let kind := (f.ident - c.base) / 8
      let src : Source := Fin.ofNat 8 ((f.ident - c.base) % 8)
      let seen : Prop := s.cp.state = .on ∧ s.osc.device ≠ .init ∧ f.extended = false ∧ f.remote = false ∧
        c.base ≤ f.ident ∧ f.ident ≤ c.base + 127
      let passes : Prop := ∃ row ∈ kindTable[kind]?, (∃ r ∈ row.1, s.bound src r = true) ∧ min f.dlc 8 = row.2
      (¬seen → exec (.frameRejected f) s = .next s) ∧
      (seen → ¬passes → exec (.frameRejected f) s = .next (latched s 15)) ∧
      (seen → passes → ∃ i, decodeFrame kind src f.data = some i ∧ exec (.frameRejected f) s = exec i s))

/-- EVENT CONTROL from the source bound to DS: SET MASK replaces the Event Mask, ACKNOWLEDGE clears the events named, any other
operation changes nothing; ATTN_N follows at once (R150, R152). -/
def Obligations.EventControlSetsMaskAndClears : Prop :=
  ∀ (s : State) (src : Source) (events : BitVec 16), FrameTaken s src .ds →
    exec (.setMask src events) s = .next { s with eu :=
      { events := s.eu.events, mask := events, attnLow := (s.eu.events &&& ~~~events) != 0#16 } } ∧
    exec (.acknowledge src events) s = .next { s with eu :=
      { events := s.eu.events &&& ~~~events, mask := s.eu.mask,
        attnLow := ((s.eu.events &&& ~~~events) &&& ~~~s.eu.mask) != 0#16 } } ∧
    (∀ op : Byte, op ≠ 1#8 → op ≠ 2#8 → exec (.eventControlOtherOperation src op events) s = .next s)

/-- STATUS_TIMER_EXPIRY: STATUS A, B and C are built from the state as it stands, by the layouts and the codes of section 8.7.2; each
takes its transmit slot, or waits behind the frame that is in transmission; nothing else changes (R36, R54, R80, R141, R142, R151). That
it takes the place of one that waits there already is the model's reading (log entry 9). -/
def Obligations.StatusFramesShowState : Prop :=
  ∀ s : State, s.cp.statusTimer = true →
    let field (v : Int) : List Byte := [BitVec.ofInt 8 (v / 256), BitVec.ofInt 8 v]
    let r := s.ae.record
    let visible := s.eu.events &&& ~~~s.eu.mask
    let device : Nat := match s.osc.device with
      | .init => 0
      | .standby => 1
      | .active => 2
      | .service => 3
      | .safeHold => 4
    let mode : Nat := match s.du.mode with
      | .normal => 0
      | .tow => 1
      | .terrain => 2
      | .rear => 3
    let link (l : Link) : Nat := match l.state with
      | .off => 0
      | .acquire => 1
      | .up => 2
      | .impaired => 3
      | .lost => 4
    let inverter (c : AxleCapability) : Nat := match c.inverter with
      | .off => 0
      | .ready => 1
      | .run => 2
      | .derate => 3
      | .fault => 4
    let level (a : SlipState) : Nat := match a with
      | .grip => 0
      | .slip => 1
      | .spin => 2
    let slip (a : SlipAxle) : Byte :=
      BitVec.ofNat 8 (level (a.override.getD a.auto) + 4 * a.override.isSome.toNat + 8 * level a.auto)
    let top : Nat := (s.ia.stack.head?.map (·.level)).getD 8
    let a : List Byte := field r.output.front ++ field r.output.rear ++ field r.unserved ++
      [BitVec.ofNat 8 (device + 8 * mode + 32 * s.du.pendingMode.isSome.toNat +
        64 * s.du.blend.active.toNat), 0#8]
    let b : List Byte := field r.share ++
      [BitVec.ofNat 8 (16 * s.ia.stack.length + top), BitVec.ofNat 8 (16 * s.ia.waiting.length),
       BitVec.ofNat 8 (16 * link s.links.front + link s.links.rear),
       BitVec.ofNat 8 (16 * inverter s.cu.front + inverter s.cu.rear),
       slip s.se.axle.front, slip s.se.axle.rear]
    let c : List Byte := field visible.toInt ++ field r.accepted ++ field r.discharge ++ field r.factor
    let put (slot : TxSlot) (o : TxOrigin) (new : List Byte) : TxSlot :=
      if s.cp.transmission.map (·.origin) = some o then ⟨slot.frame, some new⟩ else ⟨some new, none⟩
    s.ia.stack.length ≤ 4 → top ≤ 8 → s.ia.waiting.length ≤ 6 →
    exec .statusTimerExpiry s = .next { s with cp := { s.cp with
      slotA := put s.cp.slotA .slotA a, slotB := put s.cp.slotB .slotB b, slotC := put s.cp.slotC .slotC c } }

/-- FRAME_OFFER: while the port is ON and no transmission is under way, a candidate is offered whose identifier no other candidate
is below, with the bytes of its layout and the codes of sections 8.7.2 and 8.7.4; nothing is offered without a candidate, during a
transmission or while the port is SILENT (R145, R146). -/
def Obligations.LowestCandidateIsOffered : Prop :=
  ∀ (s : State) (c : ChassisConfig), s.chassis = some c → s.osc.device ≠ .init →
    (s.cp.state = .on → s.cp.transmission = none → ∀ u, Candidate s c u →
      ∃ t, Candidate s c t ∧ (∀ v, Candidate s c v → t.ident ≤ v.ident) ∧
        exec .frameOffer s = .next { s with cp := { s.cp with transmission := some t } }) ∧
    (s.cp.state = .on → s.cp.transmission = none → (∀ u, ¬Candidate s c u) → exec .frameOffer s = .next s) ∧
    (s.cp.state = .silent ∨ s.cp.transmission.isSome = true → exec .frameOffer s = .next s)

/-- TRANSMISSION_SUCCESS of a status frame or an answer: the frame leaves its slot or queue, a newer status frame that waited takes
the slot, and the transmit error count decreases by 1, stopping at 0. TRANSMISSION_FAILURE, ARBITRATION_LOSS and SILENT_END: an
unsent frame stays unless a newer one waits behind it; a failure adds 8 to the transmit error count and above 255 the port enters
SILENT with a count of 0; a loss of arbitration counts nothing; the end of SILENT returns the port to ON with a count of 0 (R142,
R143, R145, R146). That a frame waiting behind one that loses arbitration takes its slot is the model's reading (log entry 8). -/
def Obligations.TransmissionEndsBySuccessOrFailure : Prop :=
  (∀ (s : State) (t : Transmission), s.cp.transmission = some t → t.origin ≠ .response →
     let moved (o : TxOrigin) (slot : TxSlot) : TxSlot := if t.origin = o then ⟨slot.behind, none⟩ else slot
     exec .transmissionSuccess s = .next { s with cp := { s.cp with
       transmission := none, errorCount := s.cp.errorCount - 1,
       slotA := moved .slotA s.cp.slotA, slotB := moved .slotB s.cp.slotB, slotC := moved .slotC s.cp.slotC,
       answers := if t.origin = .answer then s.cp.answers.tail else s.cp.answers } }) ∧
  (∀ s : State,
     (∀ t, s.cp.transmission = some t →
       let kept (o : TxOrigin) (slot : TxSlot) : TxSlot :=
         if t.origin = o ∧ slot.behind.isSome then ⟨slot.behind, none⟩ else slot
       let unsent := { s.cp with
         transmission := none, slotA := kept .slotA s.cp.slotA, slotB := kept .slotB s.cp.slotB,
         slotC := kept .slotC s.cp.slotC }
       (s.cp.errorCount + 8 ≤ 255 →
         exec .transmissionFailure s = .next { s with cp := { unsent with errorCount := s.cp.errorCount + 8 } }) ∧
       (255 < s.cp.errorCount + 8 →
         exec .transmissionFailure s = .next { s with cp := { unsent with state := .silent, errorCount := 0 } }) ∧
       exec .arbitrationLoss s = .next { s with cp := unsent }) ∧
     (s.cp.state = .silent → exec .silentEnd s = .next { s with cp := { s.cp with state := .on, errorCount := 0 } }))

/-! ## Service requests -/

/-- SERVICE_REQUEST: a request joins a Service Queue that has room; a full queue answers BUSY while the response queue, less the
place a request in execution reserves, has room, and else the request is discarded (R154). -/
def Obligations.ServiceRequestQueuesOrBusy : Prop :=
  ∀ (s : State) (src : Source) (code : Byte) (params : List Byte), FrameTaken s src .st → params.length = 7 →
    let reserved := if s.su.operation = none then 0 else 1
    let out := exec (.serviceRequest src code params) s
    (s.su.queue.length < 4 → out = .next { s with su := { s.su with queue := s.su.queue ++ [⟨src, code, params⟩] } }) ∧
    (s.su.queue.length = 4 → s.su.responses.length + reserved < 4 →
      out = .next { s with su := { s.su with responses := s.su.responses ++ [⟨src, code, .busy, noPayload⟩] } }) ∧
    (s.su.queue.length = 4 → 4 ≤ s.su.responses.length + reserved → out = .next s)

/-- ENTER_SERVICE from STANDBY or SAFE HOLD: the device enters SERVICE, the pass timer stops, a pass in progress is abandoned, the
previous outputs, the published outputs and the shortfall count are 0, both lists are cleared with CLEARED answers, and DONE is
placed; from any other state WRONG STATE (R10, R76, R155). -/
def Obligations.EnterServiceClearsTorqueAndLists : Prop :=
  ∀ (s : State) (r : Request), Begins s 0x01#8 r →
    (s.osc.device = .standby ∨ s.osc.device = .safeHold →
      exec .enterService s = .next { afterResponse s r .done noPayload with
        osc := { s.osc with device := .service },
        ae := { s.ae with passTimer := false, pass := none, prev := ⟨0, 0⟩,
                          record := { s.ae.record with output := ⟨0, 0⟩ }, shortfall := 0 },
        ia := { stack := [], waiting := [], arrivals := s.ia.arrivals },
        cp := s.cp.addAnswers ((s.ia.stack ++ s.ia.waiting).map (fun e => answerTo e .cleared .none)) }) ∧
    (s.osc.device = .active ∨ s.osc.device = .service →
      exec .enterService s = .next (afterResponse s r .wrongState noPayload))

/-- LEAVE_SERVICE and its completion: in SERVICE an image check goes into execution; its completion sets the calibration and the
chassis configuration in force, opens every closed loopback, and leads to STANDBY with the pass timer started and DONE, or to
SAFE HOLD with IMAGE INVALID; outside SERVICE it is refused with WRONG STATE (R7, R11, R13, R133). What a calibrated configuration and
its binding hold is said with the image check of INIT; the level bounds 0 and 0 of the default one are the model's choice (log entry
21). -/
def Obligations.LeaveServiceAdoptsImage : Prop :=
  ∀ (s : State) (r : Request),
    (Begins s 0x02#8 r →
      (s.osc.device = .service → exec .leaveService s = .next (inExecution s .imageCheck)) ∧
      (s.osc.device ≠ .service → exec .leaveService s = .next (afterResponse s r .wrongState noPayload))) ∧
    (s.su.operation = some .imageCheck → s.su.queue.head? = some r →
      let ok := s.store.image.valid
      let config : ChassisConfig := if ok then s.store.image.chassis else
        { base := 0x600, own := 7,
          table := [⟨.none, 0, 0⟩, ⟨.none, 0, 0⟩, ⟨.none, 0, 0⟩, ⟨.none, 0, 0⟩, ⟨.none, 0, 0⟩, ⟨.none, 0, 0⟩,
                    ⟨.st, 0, 0⟩, ⟨.none, 0, 0⟩] }
      let open_ (l : Link) : Link :=
        if l.loop = .opened then l else
          { l with loop := .opened, state := .acquire, goodRun := 0, badRun := 0, prevWord := none, ackVerified := false,
                   complete := false, slot := if l.slot = .waiting then .noResult else l.slot }
      exec .leaveServiceCompletion s = .next { afterResponse s r (if ok then .done else .imageInvalid) noPayload with
        osc := { s.osc with device := if ok then .standby else .safeHold },
        ae := { s.ae with passTimer := if ok then true else s.ae.passTimer },
        cp := { s.cp with binding := some config.binding },
        links := ⟨open_ s.links.front, open_ s.links.rear⟩,
        image := some s.store.image, chassis := some config })

/-- UNKNOWN_SERVICE, READ_IDENTITY and RESTART: an unlisted code is answered UNKNOWN SERVICE; READ IDENTITY returns the version of
the image last checked and the reset cause; RESTART places DONE and sets restart pending (R155 to R157). -/
def Obligations.IdentityRestartAndUnknownService : Prop :=
  ∀ (s : State) (r : Request),
    (∀ code, code ∉ listedCodes → Begins s code r →
      exec .unknownService s = .next (afterResponse s r .unknownService noPayload)) ∧
    (∀ m, s.image = some m → Begins s 0x23#8 r →
      let cause : Byte := match s.osc.cause with
        | .power => 1#8
        | .pin => 2#8
        | .restart => 3#8
      exec .readIdentity s = .next
        (afterResponse s r .done [m.byte 0 2, m.byte 0 3, cause, 0#8, 0#8, 0#8])) ∧
    (Begins s 0x30#8 r → exec .restart s = .next
      { afterResponse s r .done noPayload with
        su := { (afterResponse s r .done noPayload).su with restartPending := true } })

/-- READ_ARBITER_ENTRY returns the entry at the index of the list named, laid out as in section 8.7.4 with its axle codes and the action
codes of section 8.7.1, and with an open hold time remaining between 1 ms and the entry's hold time (log entry 3); EMPTY as zeros for an
index without an entry; BAD ADDRESS for a list not listed or an index beyond the list's capacity (R73, R80, R155). -/
def Obligations.ArbiterEntryIsRead : Prop :=
  ∀ (s : State) (r : Request), Begins s 0x22#8 r →
    let index := (r.params.getD 1 0#8).toNat
    let named (which : Byte) (list : List Entry) (highest : Nat) : Prop :=
      (which = 0#8 ∧ list = s.ia.stack ∧ highest = 3) ∨ (which = 1#8 ∧ list = s.ia.waiting ∧ highest = 5)
    (∀ list highest, named (r.params.getD 0 0#8) list highest →
      (highest < index → exec .readArbiterEntry s = .next (afterResponse s r .badAddress noPayload)) ∧
      (index ≤ highest → list[index]? = none → exec .readArbiterEntry s = .next (afterResponse s r .done noPayload)) ∧
      (∀ e, index ≤ highest → list[index]? = some e → EntryRanges e →
        let axle : Nat := match e.axle with
          | .front => 1
          | .rear => 2
          | .both => 3
        let kind : Nat := match e.kind with
          | .axleCap => 1
          | .totalCap => 2
          | .shareHold => 3
          | .regenCut => 4
        ∃ left, 1 ≤ left ∧ left ≤ e.hold ∧
          exec .readArbiterEntry s = .next { afterResponse s r .done
            [BitVec.ofNat 8 (32 * e.source.val + 4 * e.level + axle), e.tag,
             BitVec.ofNat 8 (32 * kind + 16 * e.noTransfer.toNat + left / 256),
             BitVec.ofNat 8 (e.value / 256), BitVec.ofNat 8 e.value, BitVec.ofNat 8 left] with
            reading := s.reading + 1 })) ∧
    (2 ≤ (r.params.getD 0 0#8).toNat →
      exec .readArbiterEntry s = .next (afterResponse s r .badAddress noPayload))

/-- READ_CAL returns the bytes named, padded with zeros, and changes nothing else; a DAMAGED sector gives DAMAGED with zeros, and a
sector, count or offset out of range BAD ADDRESS, in every device state in which requests begin (R158). -/
def Obligations.CalibrationBytesAreRead : Prop :=
  ∀ (s : State) (r : Request), Begins s 0x10#8 r →
    let sector := (r.params.getD 0 0#8).toNat / 16
    let count := (r.params.getD 0 0#8).toNat % 16
    let offset := (r.params.getD 1 0#8).toNat
    let inRange : Prop := sector ≤ 3 ∧ 1 ≤ count ∧ count ≤ 4 ∧ offset + count ≤ 256
    let at_ (k : Nat) : Byte := if k < count then readCell s.store.cells (256 * sector + offset + k) else 0#8
    (inRange → s.store.sectors.get sector ≠ .damaged →
      exec .readCal s = .next (afterResponse s r .done [at_ 0, at_ 1, at_ 2, at_ 3, 0#8, 0#8])) ∧
    (inRange → s.store.sectors.get sector = .damaged → exec .readCal s = .next (afterResponse s r .damaged noPayload)) ∧
    (¬inRange → exec .readCal s = .next (afterResponse s r .badAddress noPayload))

/-- WRITE_CAL: the checks in the order of R155 and R159, each deciding the result, and a write that passes them goes into execution.
That it changes no byte yet is the model's reading (log entry 27). -/
def Obligations.WriteChecksInOrder : Prop :=
  ∀ (s : State) (r : Request), Begins s 0x11#8 r →
    let sector := (r.params.getD 0 0#8).toNat / 16
    let count := (r.params.getD 0 0#8).toNat % 16
    let offset := (r.params.getD 1 0#8).toNat
    let inRange : Prop := sector ≤ 3 ∧ 1 ≤ count ∧ count ≤ 4 ∧ offset + count ≤ 256
    let blank : Prop := ∀ k < count, readCell s.store.cells (256 * sector + offset + k) = 0xFF#8
    let refused (result : ServiceResult) : Prop := exec .writeCal s = .next (afterResponse s r result noPayload)
    (s.osc.device ≠ .service → refused .wrongState) ∧
    (s.osc.device = .service → ¬inRange → refused .badAddress) ∧
    (s.osc.device = .service → inRange → s.store.locked = true → refused .locked) ∧
    (s.osc.device = .service → inRange → s.store.locked = false → s.store.sectors.get sector = .damaged → refused .damaged) ∧
    (s.osc.device = .service → inRange → s.store.locked = false → s.store.sectors.get sector ≠ .damaged → ¬blank →
      refused .notErased) ∧
    (s.osc.device = .service → inRange → s.store.locked = false → s.store.sectors.get sector ≠ .damaged → blank →
      exec .writeCal s = .next (inExecution s (.write sector offset
        ([r.params.getD 2 0#8, r.params.getD 3 0#8, r.params.getD 4 0#8, r.params.getD 5 0#8].take count))))

/-- WRITE_CAL_COMPLETION: the data bytes stand at their targets and every other byte of the store reads as before; the sector is
PROGRAMMED and no other sector's state changes; DONE is placed, and nothing else changes (R159). That the bytes appear at the
completion is the model's reading (log entry 27). -/
def Obligations.WriteStoresItsBytes : Prop :=
  ∀ (s : State) (r : Request) (sector offset : Nat) (data : List Byte),
    s.su.operation = some (.write sector offset data) → s.su.queue.head? = some r → StoreLaws s → sector ≤ 3 →
    ∃ c : Store, exec .writeCalCompletion s = .next { afterResponse s r .done noPayload with store := c } ∧
      c.locked = s.store.locked ∧ Memory.wf c.cells = true ∧
      (∀ k (_ : k < data.length), readCell c.cells (256 * sector + offset + k) = data.getD k 0#8) ∧
      (∀ a, a < 256 * sector + offset ∨ 256 * sector + offset + data.length ≤ a →
        readCell c.cells a = readCell s.store.cells a) ∧
      c.sectors.get sector = .programmed ∧ (∀ k ≤ 3, k ≠ sector → c.sectors.get k = s.store.sectors.get k)

/-- ERASE_SECTOR and its completion: the checks of R160 in their order, then the erase goes into execution; at its end every byte of
the sector reads 0xFF and the sector is ERASED with DONE, or it is DAMAGED with ERASE FAILED; no other sector changes. That the
outcome of the check is an operand, and that a failed erase keeps no byte, is the model's form (log entries 11 and 15). -/
def Obligations.EraseEndsErasedOrDamaged : Prop :=
  ∀ (s : State) (r : Request),
    (Begins s 0x12#8 r →
      let sector := (r.params.getD 0 0#8).toNat / 16
      let refused (result : ServiceResult) : Prop := exec .eraseSector s = .next (afterResponse s r result noPayload)
      (s.osc.device ≠ .service → refused .wrongState) ∧
      (s.osc.device = .service → 3 < sector → refused .badAddress) ∧
      (s.osc.device = .service → sector ≤ 3 → s.store.locked = true → refused .locked) ∧
      (s.osc.device = .service → sector ≤ 3 → s.store.locked = false →
        exec .eraseSector s = .next (inExecution s (.erase sector)))) ∧
    (∀ (sector : Nat) (ok : Bool), s.su.operation = some (.erase sector) → s.su.queue.head? = some r → sector ≤ 3 →
      ∃ c : Store, exec (.eraseSectorCompletion ok) s =
          .next { afterResponse s r (if ok then .done else .eraseFailed) noPayload with store := c } ∧
        c.locked = s.store.locked ∧ c.sectors.get sector = (if ok then .erased else .damaged) ∧
        (∀ off < 256, c.byte sector off = if ok then 0xFF#8 else 0#8) ∧
        (∀ k ≤ 3, k ≠ sector → c.sectors.get k = s.store.sectors.get k ∧ ∀ off < 256, c.byte k off = s.store.byte k off))

/-- BULK_ERASE and its completion: in SERVICE, locked or not, the lock cell is cleared and the erase goes into execution; at its end
each sector that checked is ERASED and each other DAMAGED, with DONE when all checked and ERASE FAILED otherwise. LOCK_STORE and its
completion: in SERVICE the lock goes into execution, and the lock cell is set with DONE at its completion, set already or not.
Outside SERVICE both are refused with WRONG STATE (R161, R162). The outcome of each sector's check is an operand of the command
(log entry 11). -/
def Obligations.BulkEraseAndLock : Prop :=
  (∀ (s : State) (r : Request),
     (Begins s 0x13#8 r →
       (s.osc.device = .service → exec .bulkErase s = .next
         (inExecution { s with store := { s.store with locked := false } } .bulkErase)) ∧
       (s.osc.device ≠ .service → exec .bulkErase s = .next (afterResponse s r .wrongState noPayload))) ∧
     (∀ e0 e1 e2 e3 : Bool, s.su.operation = some .bulkErase → s.su.queue.head? = some r →
       let erased (k : Nat) : Bool := [e0, e1, e2, e3].getD k false
       let all := e0 && e1 && e2 && e3
       ∃ c : Store, exec (.bulkEraseCompletion e0 e1 e2 e3) s =
           .next { afterResponse s r (if all then .done else .eraseFailed) noPayload with store := c } ∧
         c.locked = s.store.locked ∧
         (∀ k ≤ 3, c.sectors.get k = (if erased k then .erased else .damaged) ∧
           ∀ off < 256, c.byte k off = if erased k then 0xFF#8 else 0#8))) ∧
  (∀ (s : State) (r : Request),
     (Begins s 0x14#8 r →
       (s.osc.device = .service → exec .lockStore s = .next (inExecution s .lock)) ∧
       (s.osc.device ≠ .service → exec .lockStore s = .next (afterResponse s r .wrongState noPayload))) ∧
     (s.su.operation = some .lock → s.su.queue.head? = some r →
       exec .lockStoreCompletion s = .next
         { afterResponse s r .done noPayload with store := { s.store with locked := true } }))

/-! ## Invariants -/

/-- Every step keeps three laws: ATTN_N is low exactly when the set of latched, unmasked events is not empty (R152); the queues
stay within their capacities, with the reserved response place, and the counters within their ranges (R120, R123, R143, R146,
R154); the frame numbers of the two links stay equal and below 8 (R115). -/
def Obligations.StepKeepsAttentionCapacitiesAndSlots : Prop :=
  (∀ s t : State, AttentionLaw s → step s = .next t → AttentionLaw t) ∧
  (∀ s t : State, CapacityLaws s → step s = .next t → CapacityLaws t) ∧
  (∀ s t : State, SlotsTogether s → step s = .next t → SlotsTogether t)

/-- Every step keeps the laws of the intervention lists: capacities, the strict order of the stack's levels, the order of the Pending
List, a top at least as good as every pending entry, and no identity twice (R64 to R66). -/
def Obligations.StepKeepsListLaws : Prop :=
  ∀ s t : State, ListLaws s.ia → step s = .next t → ListLaws t.ia

/-- From a locked store a step leaves every sector as it was, and the lock set unless a bulk erase has begun (R161, R162). Every step
keeps the store's laws: its canonical form and the blank DAMAGED sector are the model's form (log entry 15), the blank ERASED sector and
the operation in execution, inside the store and on an unlocked one, follow section 10.2 and R159 to R161. -/
def Obligations.StepKeepsStoreAndLock : Prop :=
  (∀ s t : State, StoreLaws s → step s = .next t → StoreLaws t) ∧
  (∀ s t : State, StoreLaws s → s.store.locked = true → step s = .next t →
     t.store.cells = s.store.cells ∧ t.store.sectors = s.store.sectors ∧
       (t.store.locked = true ∨ t.su.operation = some .bulkErase))

/-- Every step keeps what follows the device state, both intervention lists empty outside STANDBY and ACTIVE among it, and the law that
outside ACTIVE both published outputs and both previous outputs are 0 (R5, R10 to R14, R76, R80, R81, R109, R114, R121, R125, R133). -/
def Obligations.StepKeepsDeviceLawsAndNoTorque : Prop :=
  ∀ s t : State, DeviceLaws s → NoTorqueOutsideActive s → step s = .next t → DeviceLaws t ∧ NoTorqueOutsideActive t

/-- Every step keeps the ranges of what a pass computes from, and of the Apportionment Record it publishes: the demand, the blend, the
entries, the capabilities, the limits (R16, R17, R34, R63, R83, R103), the tongue load (R24), the sixteen positions of each delay line,
the filtered slip and the slip counts (R44, R46, R49, R50), the speeds, the previous outputs and the shortfall count (R110, R111), the
counter reference and its run (R19); a pending mode is never the current one (R31); and both override records are off while the Reference
Record is not FRESH (R52, R55, R56). -/
def Obligations.StepKeepsRanges : Prop :=
  ∀ s t : State, RangeLaws s → step s = .next t → RangeLaws t

/-- The state after a POWER reset meets every law that the steps keep. The store's first content, erased and unlocked, is the model's
choice (log entry 1). -/
def Obligations.ResetMeetsEveryLaw : Prop :=
  AttentionLaw State.reset ∧ ListLaws State.reset.ia ∧ StoreLaws State.reset ∧ CapacityLaws State.reset ∧
    DeviceLaws State.reset ∧ NoTorqueOutsideActive State.reset ∧ SlotsTogether State.reset ∧ RangeLaws State.reset
end

