-- ==== Sys2Proof/Laws/State.lean ====
section
/-! SUPPORT. What each shared update of the state leaves as it was, one lemma a field, and the values it sets. -/

namespace Sys2Proof

@[simp] theorem Axles.get_set {α : Type} (p : Axles α) (x : Axle) (a : α) : (p.set x a).get x = a := by cases x <;> rfl

@[simp] theorem Axles.get_set_other {α : Type} (p : Axles α) (x : Axle) (a : α) :
    (p.set x a).get x.other = p.get x.other := by cases x <;> rfl

@[simp] theorem Axles.set_set {α : Type} (p : Axles α) (x : Axle) (a b : α) : (p.set x a).set x b = p.set x b := by
  cases x <;> rfl

@[simp] theorem Axles.set_get {α : Type} (p : Axles α) (x : Axle) : p.set x (p.get x) = p := by cases x <;> rfl

/-- A sector that is set reads back. -/
@[simp] theorem Sectors.get_set {α : Type} (p : Sectors α) (k : Nat) (a : α) : (p.set k a).get k = a := by
  match k with
  | 0 => rfl
  | 1 => rfl
  | 2 => rfl
  | _ + 3 => rfl

/-- Setting a sector leaves the others of 0 to 3 as they were. -/
theorem Sectors.get_set_ne {α : Type} (p : Sectors α) {j k : Nat} (a : α) (hj : j ≤ 3) (hk : k ≤ 3) (h : j ≠ k) :
    (p.set k a).get j = p.get j := by
  have : j = 0 ∨ j = 1 ∨ j = 2 ∨ j = 3 := by omega
  have : k = 0 ∨ k = 1 ∨ k = 2 ∨ k = 3 := by omega
  rcases ‹j = 0 ∨ _› with rfl | rfl | rfl | rfl <;> rcases ‹k = 0 ∨ _› with rfl | rfl | rfl | rfl <;>
    first | rfl | exact absurd rfl h

end Sys2Proof

namespace Sys2Proof.Machine

/-! ## raise -/

@[simp] theorem State.raise_osc (s : State) (e : Event) : (s.raise e).osc = s.osc := rfl
@[simp] theorem State.raise_du (s : State) (e : Event) : (s.raise e).du = s.du := rfl
@[simp] theorem State.raise_se (s : State) (e : Event) : (s.raise e).se = s.se := rfl
@[simp] theorem State.raise_ia (s : State) (e : Event) : (s.raise e).ia = s.ia := rfl
@[simp] theorem State.raise_cu (s : State) (e : Event) : (s.raise e).cu = s.cu := rfl
@[simp] theorem State.raise_ae (s : State) (e : Event) : (s.raise e).ae = s.ae := rfl
@[simp] theorem State.raise_links (s : State) (e : Event) : (s.raise e).links = s.links := rfl
@[simp] theorem State.raise_cp (s : State) (e : Event) : (s.raise e).cp = s.cp := rfl
@[simp] theorem State.raise_su (s : State) (e : Event) : (s.raise e).su = s.su := rfl
@[simp] theorem State.raise_store (s : State) (e : Event) : (s.raise e).store = s.store := rfl
@[simp] theorem State.raise_image (s : State) (e : Event) : (s.raise e).image = s.image := rfl
@[simp] theorem State.raise_chassis (s : State) (e : Event) : (s.raise e).chassis = s.chassis := rfl
@[simp] theorem State.raise_reading (s : State) (e : Event) : (s.raise e).reading = s.reading := rfl
@[simp] theorem State.raise_pending (s : State) (e : Event) : (s.raise e).pending = s.pending := rfl
@[simp] theorem State.raise_eu (s : State) (e : Event) : (s.raise e).eu = s.eu.raise e := rfl

/-! ## raiseIf -/

@[simp] theorem State.raiseIf_osc (s : State) (b : Bool) (e : Event) : (s.raiseIf b e).osc = s.osc := by cases b <;> rfl
@[simp] theorem State.raiseIf_du (s : State) (b : Bool) (e : Event) : (s.raiseIf b e).du = s.du := by cases b <;> rfl
@[simp] theorem State.raiseIf_se (s : State) (b : Bool) (e : Event) : (s.raiseIf b e).se = s.se := by cases b <;> rfl
@[simp] theorem State.raiseIf_ia (s : State) (b : Bool) (e : Event) : (s.raiseIf b e).ia = s.ia := by cases b <;> rfl
@[simp] theorem State.raiseIf_cu (s : State) (b : Bool) (e : Event) : (s.raiseIf b e).cu = s.cu := by cases b <;> rfl
@[simp] theorem State.raiseIf_ae (s : State) (b : Bool) (e : Event) : (s.raiseIf b e).ae = s.ae := by cases b <;> rfl
@[simp] theorem State.raiseIf_links (s : State) (b : Bool) (e : Event) : (s.raiseIf b e).links = s.links := by cases b <;> rfl
@[simp] theorem State.raiseIf_cp (s : State) (b : Bool) (e : Event) : (s.raiseIf b e).cp = s.cp := by cases b <;> rfl
@[simp] theorem State.raiseIf_su (s : State) (b : Bool) (e : Event) : (s.raiseIf b e).su = s.su := by cases b <;> rfl
@[simp] theorem State.raiseIf_store (s : State) (b : Bool) (e : Event) : (s.raiseIf b e).store = s.store := by cases b <;> rfl
@[simp] theorem State.raiseIf_image (s : State) (b : Bool) (e : Event) : (s.raiseIf b e).image = s.image := by cases b <;> rfl
@[simp] theorem State.raiseIf_chassis (s : State) (b : Bool) (e : Event) : (s.raiseIf b e).chassis = s.chassis := by cases b <;> rfl
@[simp] theorem State.raiseIf_reading (s : State) (b : Bool) (e : Event) : (s.raiseIf b e).reading = s.reading := by cases b <;> rfl
@[simp] theorem State.raiseIf_pending (s : State) (b : Bool) (e : Event) : (s.raiseIf b e).pending = s.pending := by cases b <;> rfl

/-! ## respond -/

@[simp] theorem State.respond_osc (s : State) (r : Request) (v : ServiceResult) (p : List Byte) : (s.respond r v p).osc = s.osc := rfl
@[simp] theorem State.respond_du (s : State) (r : Request) (v : ServiceResult) (p : List Byte) : (s.respond r v p).du = s.du := rfl
@[simp] theorem State.respond_se (s : State) (r : Request) (v : ServiceResult) (p : List Byte) : (s.respond r v p).se = s.se := rfl
@[simp] theorem State.respond_ia (s : State) (r : Request) (v : ServiceResult) (p : List Byte) : (s.respond r v p).ia = s.ia := rfl
@[simp] theorem State.respond_cu (s : State) (r : Request) (v : ServiceResult) (p : List Byte) : (s.respond r v p).cu = s.cu := rfl
@[simp] theorem State.respond_ae (s : State) (r : Request) (v : ServiceResult) (p : List Byte) : (s.respond r v p).ae = s.ae := rfl
@[simp] theorem State.respond_links (s : State) (r : Request) (v : ServiceResult) (p : List Byte) : (s.respond r v p).links = s.links := rfl
@[simp] theorem State.respond_eu (s : State) (r : Request) (v : ServiceResult) (p : List Byte) : (s.respond r v p).eu = s.eu := rfl
@[simp] theorem State.respond_cp (s : State) (r : Request) (v : ServiceResult) (p : List Byte) : (s.respond r v p).cp = s.cp := rfl
@[simp] theorem State.respond_store (s : State) (r : Request) (v : ServiceResult) (p : List Byte) : (s.respond r v p).store = s.store := rfl
@[simp] theorem State.respond_image (s : State) (r : Request) (v : ServiceResult) (p : List Byte) : (s.respond r v p).image = s.image := rfl
@[simp] theorem State.respond_chassis (s : State) (r : Request) (v : ServiceResult) (p : List Byte) : (s.respond r v p).chassis = s.chassis := rfl
@[simp] theorem State.respond_reading (s : State) (r : Request) (v : ServiceResult) (p : List Byte) : (s.respond r v p).reading = s.reading := rfl
@[simp] theorem State.respond_pending (s : State) (r : Request) (v : ServiceResult) (p : List Byte) : (s.respond r v p).pending = s.pending := rfl
@[simp] theorem State.respond_su (s : State) (r : Request) (v : ServiceResult) (p : List Byte) : (s.respond r v p).su = s.su.complete r v p := rfl

/-! ## execute -/

@[simp] theorem State.execute_osc (s : State) (op : Operation) : (s.execute op).osc = s.osc := rfl
@[simp] theorem State.execute_du (s : State) (op : Operation) : (s.execute op).du = s.du := rfl
@[simp] theorem State.execute_se (s : State) (op : Operation) : (s.execute op).se = s.se := rfl
@[simp] theorem State.execute_ia (s : State) (op : Operation) : (s.execute op).ia = s.ia := rfl
@[simp] theorem State.execute_cu (s : State) (op : Operation) : (s.execute op).cu = s.cu := rfl
@[simp] theorem State.execute_ae (s : State) (op : Operation) : (s.execute op).ae = s.ae := rfl
@[simp] theorem State.execute_links (s : State) (op : Operation) : (s.execute op).links = s.links := rfl
@[simp] theorem State.execute_eu (s : State) (op : Operation) : (s.execute op).eu = s.eu := rfl
@[simp] theorem State.execute_cp (s : State) (op : Operation) : (s.execute op).cp = s.cp := rfl
@[simp] theorem State.execute_store (s : State) (op : Operation) : (s.execute op).store = s.store := rfl
@[simp] theorem State.execute_image (s : State) (op : Operation) : (s.execute op).image = s.image := rfl
@[simp] theorem State.execute_chassis (s : State) (op : Operation) : (s.execute op).chassis = s.chassis := rfl
@[simp] theorem State.execute_reading (s : State) (op : Operation) : (s.execute op).reading = s.reading := rfl
@[simp] theorem State.execute_pending (s : State) (op : Operation) : (s.execute op).pending = s.pending := rfl
@[simp] theorem State.execute_su (s : State) (op : Operation) : (s.execute op).su = { s.su with operation := some op } := rfl

/-! ## adoptImage -/

@[simp] theorem State.adoptImage_osc (s : State) : (s.adoptImage).osc = s.osc := rfl
@[simp] theorem State.adoptImage_du (s : State) : (s.adoptImage).du = s.du := rfl
@[simp] theorem State.adoptImage_se (s : State) : (s.adoptImage).se = s.se := rfl
@[simp] theorem State.adoptImage_ia (s : State) : (s.adoptImage).ia = s.ia := rfl
@[simp] theorem State.adoptImage_cu (s : State) : (s.adoptImage).cu = s.cu := rfl
@[simp] theorem State.adoptImage_ae (s : State) : (s.adoptImage).ae = s.ae := rfl
@[simp] theorem State.adoptImage_links (s : State) : (s.adoptImage).links = s.links := rfl
@[simp] theorem State.adoptImage_eu (s : State) : (s.adoptImage).eu = s.eu := rfl
@[simp] theorem State.adoptImage_su (s : State) : (s.adoptImage).su = s.su := rfl
@[simp] theorem State.adoptImage_store (s : State) : (s.adoptImage).store = s.store := rfl
@[simp] theorem State.adoptImage_reading (s : State) : (s.adoptImage).reading = s.reading := rfl
@[simp] theorem State.adoptImage_pending (s : State) : (s.adoptImage).pending = s.pending := rfl
@[simp] theorem State.adoptImage_image (s : State) : (s.adoptImage).image = some s.store.image := rfl

/-! ## enterReset -/

@[simp] theorem State.enterReset_reading (s : State) (k : ResetKind) : (s.enterReset k).reading = s.reading := rfl
@[simp] theorem State.enterReset_pending (s : State) (k : ResetKind) : (s.enterReset k).pending = s.pending := rfl
@[simp] theorem State.enterReset_du (s : State) (k : ResetKind) : (s.enterReset k).du = .reset := rfl
@[simp] theorem State.enterReset_se (s : State) (k : ResetKind) : (s.enterReset k).se = .reset := rfl
@[simp] theorem State.enterReset_ia (s : State) (k : ResetKind) : (s.enterReset k).ia = .reset := rfl
@[simp] theorem State.enterReset_cu (s : State) (k : ResetKind) : (s.enterReset k).cu = ⟨.reset, .reset⟩ := rfl
@[simp] theorem State.enterReset_ae (s : State) (k : ResetKind) : (s.enterReset k).ae = .reset := rfl
@[simp] theorem State.enterReset_links (s : State) (k : ResetKind) : (s.enterReset k).links = ⟨.reset, .reset⟩ := rfl
@[simp] theorem State.enterReset_eu (s : State) (k : ResetKind) : (s.enterReset k).eu = .reset := rfl
@[simp] theorem State.enterReset_cp (s : State) (k : ResetKind) : (s.enterReset k).cp = .reset := rfl
@[simp] theorem State.enterReset_su (s : State) (k : ResetKind) : (s.enterReset k).su = .reset := rfl
@[simp] theorem State.enterReset_image (s : State) (k : ResetKind) : (s.enterReset k).image = none := rfl
@[simp] theorem State.enterReset_chassis (s : State) (k : ResetKind) : (s.enterReset k).chassis = none := rfl
@[simp] theorem State.enterReset_store (s : State) (k : ResetKind) : (s.enterReset k).store = s.store.abandon s.su.operation := rfl

/-! ## thirdWrongAfterExpiry -/

@[simp] theorem State.thirdWrongAfterExpiry_osc (s : State) : s.thirdWrongAfterExpiry.osc = s.osc := rfl
@[simp] theorem State.thirdWrongAfterExpiry_se (s : State) : s.thirdWrongAfterExpiry.se = s.se := rfl
@[simp] theorem State.thirdWrongAfterExpiry_ia (s : State) : s.thirdWrongAfterExpiry.ia = s.ia := rfl
@[simp] theorem State.thirdWrongAfterExpiry_cu (s : State) : s.thirdWrongAfterExpiry.cu = s.cu := rfl
@[simp] theorem State.thirdWrongAfterExpiry_ae (s : State) : s.thirdWrongAfterExpiry.ae = s.ae := rfl
@[simp] theorem State.thirdWrongAfterExpiry_links (s : State) : s.thirdWrongAfterExpiry.links = s.links := rfl
@[simp] theorem State.thirdWrongAfterExpiry_eu (s : State) : s.thirdWrongAfterExpiry.eu = s.eu := rfl
@[simp] theorem State.thirdWrongAfterExpiry_cp (s : State) : s.thirdWrongAfterExpiry.cp = s.cp := rfl
@[simp] theorem State.thirdWrongAfterExpiry_su (s : State) : s.thirdWrongAfterExpiry.su = s.su := rfl
@[simp] theorem State.thirdWrongAfterExpiry_store (s : State) : s.thirdWrongAfterExpiry.store = s.store := rfl
@[simp] theorem State.thirdWrongAfterExpiry_image (s : State) : s.thirdWrongAfterExpiry.image = s.image := rfl
@[simp] theorem State.thirdWrongAfterExpiry_chassis (s : State) : s.thirdWrongAfterExpiry.chassis = s.chassis := rfl
@[simp] theorem State.thirdWrongAfterExpiry_reading (s : State) : s.thirdWrongAfterExpiry.reading = s.reading := rfl
@[simp] theorem State.thirdWrongAfterExpiry_pending (s : State) : s.thirdWrongAfterExpiry.pending = s.pending := rfl
@[simp] theorem State.thirdWrongAfterExpiry_du (s : State) :
    s.thirdWrongAfterExpiry.du = { s.du with badRun := 0 } := rfl

/-! ## acceptDemand -/

@[simp] theorem State.acceptDemand_osc (s : State) (t : BitVec 16) (m f : Byte) (c : Nat) : (s.acceptDemand t m f c).osc = s.osc := rfl
@[simp] theorem State.acceptDemand_se (s : State) (t : BitVec 16) (m f : Byte) (c : Nat) : (s.acceptDemand t m f c).se = s.se := rfl
@[simp] theorem State.acceptDemand_ia (s : State) (t : BitVec 16) (m f : Byte) (c : Nat) : (s.acceptDemand t m f c).ia = s.ia := rfl
@[simp] theorem State.acceptDemand_cu (s : State) (t : BitVec 16) (m f : Byte) (c : Nat) : (s.acceptDemand t m f c).cu = s.cu := rfl
@[simp] theorem State.acceptDemand_ae (s : State) (t : BitVec 16) (m f : Byte) (c : Nat) : (s.acceptDemand t m f c).ae = s.ae := rfl
@[simp] theorem State.acceptDemand_links (s : State) (t : BitVec 16) (m f : Byte) (c : Nat) : (s.acceptDemand t m f c).links = s.links := rfl
@[simp] theorem State.acceptDemand_eu (s : State) (t : BitVec 16) (m f : Byte) (c : Nat) : (s.acceptDemand t m f c).eu = s.eu := rfl
@[simp] theorem State.acceptDemand_su (s : State) (t : BitVec 16) (m f : Byte) (c : Nat) : (s.acceptDemand t m f c).su = s.su := rfl
@[simp] theorem State.acceptDemand_store (s : State) (t : BitVec 16) (m f : Byte) (c : Nat) : (s.acceptDemand t m f c).store = s.store := rfl
@[simp] theorem State.acceptDemand_image (s : State) (t : BitVec 16) (m f : Byte) (c : Nat) : (s.acceptDemand t m f c).image = s.image := rfl
@[simp] theorem State.acceptDemand_chassis (s : State) (t : BitVec 16) (m f : Byte) (c : Nat) : (s.acceptDemand t m f c).chassis = s.chassis := rfl
@[simp] theorem State.acceptDemand_reading (s : State) (t : BitVec 16) (m f : Byte) (c : Nat) : (s.acceptDemand t m f c).reading = s.reading := rfl
@[simp] theorem State.acceptDemand_pending (s : State) (t : BitVec 16) (m f : Byte) (c : Nat) : (s.acceptDemand t m f c).pending = s.pending := rfl

/-! ## takeLoad -/

@[simp] theorem State.takeLoad_osc (s : State) (t : BitVec 16) (f : Byte) : (s.takeLoad t f).osc = s.osc := rfl
@[simp] theorem State.takeLoad_se (s : State) (t : BitVec 16) (f : Byte) : (s.takeLoad t f).se = s.se := rfl
@[simp] theorem State.takeLoad_ia (s : State) (t : BitVec 16) (f : Byte) : (s.takeLoad t f).ia = s.ia := rfl
@[simp] theorem State.takeLoad_cu (s : State) (t : BitVec 16) (f : Byte) : (s.takeLoad t f).cu = s.cu := rfl
@[simp] theorem State.takeLoad_ae (s : State) (t : BitVec 16) (f : Byte) : (s.takeLoad t f).ae = s.ae := rfl
@[simp] theorem State.takeLoad_links (s : State) (t : BitVec 16) (f : Byte) : (s.takeLoad t f).links = s.links := rfl
@[simp] theorem State.takeLoad_eu (s : State) (t : BitVec 16) (f : Byte) : (s.takeLoad t f).eu = s.eu := rfl
@[simp] theorem State.takeLoad_su (s : State) (t : BitVec 16) (f : Byte) : (s.takeLoad t f).su = s.su := rfl
@[simp] theorem State.takeLoad_store (s : State) (t : BitVec 16) (f : Byte) : (s.takeLoad t f).store = s.store := rfl
@[simp] theorem State.takeLoad_image (s : State) (t : BitVec 16) (f : Byte) : (s.takeLoad t f).image = s.image := rfl
@[simp] theorem State.takeLoad_chassis (s : State) (t : BitVec 16) (f : Byte) : (s.takeLoad t f).chassis = s.chassis := rfl
@[simp] theorem State.takeLoad_reading (s : State) (t : BitVec 16) (f : Byte) : (s.takeLoad t f).reading = s.reading := rfl
@[simp] theorem State.takeLoad_pending (s : State) (t : BitVec 16) (f : Byte) : (s.takeLoad t f).pending = s.pending := rfl

/-! ## takeBatteryLimit -/

@[simp] theorem State.takeBatteryLimit_osc (s : State) (d c : BitVec 16) : (s.takeBatteryLimit d c).osc = s.osc := rfl
@[simp] theorem State.takeBatteryLimit_du (s : State) (d c : BitVec 16) : (s.takeBatteryLimit d c).du = s.du := rfl
@[simp] theorem State.takeBatteryLimit_se (s : State) (d c : BitVec 16) : (s.takeBatteryLimit d c).se = s.se := rfl
@[simp] theorem State.takeBatteryLimit_ia (s : State) (d c : BitVec 16) : (s.takeBatteryLimit d c).ia = s.ia := rfl
@[simp] theorem State.takeBatteryLimit_cu (s : State) (d c : BitVec 16) : (s.takeBatteryLimit d c).cu = s.cu := rfl
@[simp] theorem State.takeBatteryLimit_links (s : State) (d c : BitVec 16) : (s.takeBatteryLimit d c).links = s.links := rfl
@[simp] theorem State.takeBatteryLimit_eu (s : State) (d c : BitVec 16) : (s.takeBatteryLimit d c).eu = s.eu := rfl
@[simp] theorem State.takeBatteryLimit_su (s : State) (d c : BitVec 16) : (s.takeBatteryLimit d c).su = s.su := rfl
@[simp] theorem State.takeBatteryLimit_store (s : State) (d c : BitVec 16) : (s.takeBatteryLimit d c).store = s.store := rfl
@[simp] theorem State.takeBatteryLimit_image (s : State) (d c : BitVec 16) : (s.takeBatteryLimit d c).image = s.image := rfl
@[simp] theorem State.takeBatteryLimit_chassis (s : State) (d c : BitVec 16) : (s.takeBatteryLimit d c).chassis = s.chassis := rfl
@[simp] theorem State.takeBatteryLimit_reading (s : State) (d c : BitVec 16) : (s.takeBatteryLimit d c).reading = s.reading := rfl
@[simp] theorem State.takeBatteryLimit_pending (s : State) (d c : BitVec 16) : (s.takeBatteryLimit d c).pending = s.pending := rfl

/-! ## takeReference -/

@[simp] theorem State.takeReference_osc (s : State) (f r : BitVec 16) : (s.takeReference f r).osc = s.osc := rfl
@[simp] theorem State.takeReference_du (s : State) (f r : BitVec 16) : (s.takeReference f r).du = s.du := rfl
@[simp] theorem State.takeReference_ia (s : State) (f r : BitVec 16) : (s.takeReference f r).ia = s.ia := rfl
@[simp] theorem State.takeReference_cu (s : State) (f r : BitVec 16) : (s.takeReference f r).cu = s.cu := rfl
@[simp] theorem State.takeReference_ae (s : State) (f r : BitVec 16) : (s.takeReference f r).ae = s.ae := rfl
@[simp] theorem State.takeReference_links (s : State) (f r : BitVec 16) : (s.takeReference f r).links = s.links := rfl
@[simp] theorem State.takeReference_eu (s : State) (f r : BitVec 16) : (s.takeReference f r).eu = s.eu := rfl
@[simp] theorem State.takeReference_su (s : State) (f r : BitVec 16) : (s.takeReference f r).su = s.su := rfl
@[simp] theorem State.takeReference_store (s : State) (f r : BitVec 16) : (s.takeReference f r).store = s.store := rfl
@[simp] theorem State.takeReference_image (s : State) (f r : BitVec 16) : (s.takeReference f r).image = s.image := rfl
@[simp] theorem State.takeReference_chassis (s : State) (f r : BitVec 16) : (s.takeReference f r).chassis = s.chassis := rfl
@[simp] theorem State.takeReference_reading (s : State) (f r : BitVec 16) : (s.takeReference f r).reading = s.reading := rfl
@[simp] theorem State.takeReference_pending (s : State) (f r : BitVec 16) : (s.takeReference f r).pending = s.pending := rfl

/-! ## arbitrate -/

@[simp] theorem State.arbitrate_osc (s : State) (r : Arbitration) : (s.arbitrate r).osc = s.osc := by simp [State.arbitrate]
@[simp] theorem State.arbitrate_du (s : State) (r : Arbitration) : (s.arbitrate r).du = s.du := by simp [State.arbitrate]
@[simp] theorem State.arbitrate_se (s : State) (r : Arbitration) : (s.arbitrate r).se = s.se := by simp [State.arbitrate]
@[simp] theorem State.arbitrate_cu (s : State) (r : Arbitration) : (s.arbitrate r).cu = s.cu := by simp [State.arbitrate]
@[simp] theorem State.arbitrate_ae (s : State) (r : Arbitration) : (s.arbitrate r).ae = s.ae := by simp [State.arbitrate]
@[simp] theorem State.arbitrate_links (s : State) (r : Arbitration) : (s.arbitrate r).links = s.links := by simp [State.arbitrate]
@[simp] theorem State.arbitrate_su (s : State) (r : Arbitration) : (s.arbitrate r).su = s.su := by simp [State.arbitrate]
@[simp] theorem State.arbitrate_store (s : State) (r : Arbitration) : (s.arbitrate r).store = s.store := by simp [State.arbitrate]
@[simp] theorem State.arbitrate_image (s : State) (r : Arbitration) : (s.arbitrate r).image = s.image := by simp [State.arbitrate]
@[simp] theorem State.arbitrate_chassis (s : State) (r : Arbitration) : (s.arbitrate r).chassis = s.chassis := by simp [State.arbitrate]
@[simp] theorem State.arbitrate_reading (s : State) (r : Arbitration) : (s.arbitrate r).reading = s.reading := by simp [State.arbitrate]
@[simp] theorem State.arbitrate_pending (s : State) (r : Arbitration) : (s.arbitrate r).pending = s.pending := by simp [State.arbitrate]

@[simp] theorem State.arbitrate_ia (s : State) (r : Arbitration) : (s.arbitrate r).ia = r.ia := by simp [State.arbitrate]

@[simp] theorem State.arbitrate_cp (s : State) (r : Arbitration) : (s.arbitrate r).cp = s.cp.addAnswers r.answers := by
  simp [State.arbitrate]

/-! ## The event unit -/

@[simp] theorem EventUnit.raise_events (u : EventUnit) (e : Event) : (u.raise e).events = u.events ||| e.set := rfl
@[simp] theorem EventUnit.raise_mask (u : EventUnit) (e : Event) : (u.raise e).mask = u.mask := rfl
@[simp] theorem EventUnit.setMask_events (u : EventUnit) (w : BitVec 16) : (u.setMask w).events = u.events := rfl
@[simp] theorem EventUnit.setMask_mask (u : EventUnit) (w : BitVec 16) : (u.setMask w).mask = w := rfl
@[simp] theorem EventUnit.acknowledge_events (u : EventUnit) (w : BitVec 16) :
    (u.acknowledge w).events = u.events &&& ~~~w := rfl
@[simp] theorem EventUnit.acknowledge_mask (u : EventUnit) (w : BitVec 16) : (u.acknowledge w).mask = u.mask := rfl
@[simp] theorem EventUnit.driveAttn_visible (u : EventUnit) : u.driveAttn.visible = u.visible := rfl
@[simp] theorem EventUnit.driveAttn_attnLow (u : EventUnit) : u.driveAttn.attnLow = (u.visible != 0#16) := rfl

/-! ## The service unit -/

@[simp] theorem ServiceUnit.complete_queue (u : ServiceUnit) (r : Request) (v : ServiceResult) (p : List Byte) :
    (u.complete r v p).queue = u.queue.tail := rfl
@[simp] theorem ServiceUnit.complete_responses (u : ServiceUnit) (r : Request) (v : ServiceResult) (p : List Byte) :
    (u.complete r v p).responses = u.responses ++ [r.response v p] := rfl
@[simp] theorem ServiceUnit.complete_operation (u : ServiceUnit) (r : Request) (v : ServiceResult) (p : List Byte) :
    (u.complete r v p).operation = none := rfl
@[simp] theorem ServiceUnit.complete_restartPending (u : ServiceUnit) (r : Request) (v : ServiceResult)
    (p : List Byte) : (u.complete r v p).restartPending = u.restartPending := rfl

/-! ## The store -/

@[simp] theorem Store.damage_locked (c : Store) (k : Nat) : (c.damage k).locked = c.locked := rfl
@[simp] theorem Store.damage_cells (c : Store) (k : Nat) : (c.damage k).cells = eraseCells c.cells k := rfl
@[simp] theorem Store.endErase_locked (c : Store) (k : Nat) (b : Bool) : (c.endErase k b).locked = c.locked := rfl
@[simp] theorem Store.endErase_cells (c : Store) (k : Nat) (b : Bool) : (c.endErase k b).cells = eraseCells c.cells k := rfl
@[simp] theorem Store.endWrite_locked (c : Store) (k o : Nat) (d : List Byte) : (c.endWrite k o d).locked = c.locked := rfl
@[simp] theorem Store.endBulkErase_locked (c : Store) (a b d e : Bool) :
    (c.endBulkErase a b d e).locked = c.locked := rfl

end Sys2Proof.Machine
end

