-- ==== Sys2Proof/Laws/Ops.lean ====
section
/-! SUPPORT. What each shared operation can do, said once: raising an event, the port's checks, the answer queue,
beginning and completing a service request, the beginning and end of a reset. -/

namespace Sys2Proof.Machine

/-! ## Events -/

/-- Raising an event is latching its bit and driving ATTN_N. -/
theorem State.raise_eq_latched (s : State) (e : Event) : s.raise e = latched s e.bit := by
  simp [State.raise, latched, EventUnit.raise, EventUnit.driveAttn, EventUnit.visible, Event.set]

theorem State.raiseIf_eq_latchedIf (s : State) (b : Bool) (e : Event) : s.raiseIf b e = latchedIf s b e.bit := by
  simp [State.raiseIf, latchedIf, State.raise_eq_latched]

/-- Every event has a bit of its own, 0 to 15. -/
theorem Event.bit_lt (e : Event) : e.bit < 16 := by
  cases e <;> first | decide | (rename_i x; cases x <;> decide)

/-! ## The port's checks -/

/-- Everything the checks do with a frame of a row: nothing, FRAME REJECTED, or handing it to its owner. -/
theorem State.admit_cases (s : State) (src : Source) (roles : List Role) (owner : State → State) :
    (s.portTakes = false ∧ s.checkFrame src roles owner = s) ∨
    (s.portTakes = true ∧ (∀ r ∈ roles, s.bound src r = false) ∧ s.checkFrame src roles owner = latched s 15) ∨
    (s.portTakes = true ∧ (∃ r ∈ roles, s.bound src r = true) ∧ s.checkFrame src roles owner = owner s) := by
  unfold State.checkFrame
  cases hp : s.portTakes
  · exact .inl ⟨rfl, rfl⟩
  · cases hr : roles.any (s.bound src)
    · exact .inr (.inl ⟨rfl, by simpa using hr, by simp [State.raise_eq_latched, Event.bit]⟩)
    · exact .inr (.inr ⟨rfl, by simpa using hr, by simp⟩)

theorem State.portTakes_iff (s : State) : s.portTakes = true ↔ s.cp.state = .on ∧ s.osc.device ≠ .init := by
  simp [State.portTakes]

/-- A frame that its source may send reaches its owner. -/
theorem State.admit_of_taken {s : State} {src : Source} {r : Role} {roles : List Role} (owner : State → State)
    (h : FrameTaken s src r) (hr : r ∈ roles) : s.checkFrame src roles owner = owner s := by
  obtain ⟨h1, h2, h3⟩ := h
  have hany : roles.any (s.bound src) = true := List.any_eq_true.2 ⟨r, hr, h3⟩
  simp [State.checkFrame, State.portTakes, h1, h2, hany]

/-! ## The answer queue -/

/-- Answers change the answer queue alone. -/
theorem Port.addAnswers_cases (p : Port) (l : List Answer) : ∃ queued, p.addAnswers l = { p with answers := queued } := by
  induction l generalizing p with
  | nil => exact ⟨p.answers, rfl⟩
  | cons a l ih =>
    obtain ⟨q, hq⟩ : ∃ q, p.addAnswer a = { p with answers := q } := by
      unfold Port.addAnswer
      split <;> exact ⟨_, rfl⟩
    obtain ⟨q', h⟩ := ih (p.addAnswer a)
    exact ⟨q', by rw [Port.addAnswers, List.foldl_cons]; exact h.trans (by rw [hq])⟩

@[simp] theorem Port.addAnswers_state (p : Port) (l : List Answer) : (p.addAnswers l).state = p.state := by
  obtain ⟨_, h⟩ := p.addAnswers_cases l
  rw [h]

@[simp] theorem Port.addAnswers_errorCount (p : Port) (l : List Answer) : (p.addAnswers l).errorCount = p.errorCount := by
  obtain ⟨_, h⟩ := p.addAnswers_cases l
  rw [h]

@[simp] theorem Port.addAnswers_statusTimer (p : Port) (l : List Answer) : (p.addAnswers l).statusTimer = p.statusTimer := by
  obtain ⟨_, h⟩ := p.addAnswers_cases l
  rw [h]

@[simp] theorem Port.addAnswers_slotA (p : Port) (l : List Answer) : (p.addAnswers l).slotA = p.slotA := by
  obtain ⟨_, h⟩ := p.addAnswers_cases l
  rw [h]

@[simp] theorem Port.addAnswers_slotB (p : Port) (l : List Answer) : (p.addAnswers l).slotB = p.slotB := by
  obtain ⟨_, h⟩ := p.addAnswers_cases l
  rw [h]

@[simp] theorem Port.addAnswers_slotC (p : Port) (l : List Answer) : (p.addAnswers l).slotC = p.slotC := by
  obtain ⟨_, h⟩ := p.addAnswers_cases l
  rw [h]

@[simp] theorem Port.addAnswers_transmission (p : Port) (l : List Answer) : (p.addAnswers l).transmission = p.transmission := by
  obtain ⟨_, h⟩ := p.addAnswers_cases l
  rw [h]

@[simp] theorem Port.addAnswers_timers (p : Port) (l : List Answer) : (p.addAnswers l).timers = p.timers := by
  obtain ⟨_, h⟩ := p.addAnswers_cases l
  rw [h]

@[simp] theorem Port.addAnswers_binding (p : Port) (l : List Answer) : (p.addAnswers l).binding = p.binding := by
  obtain ⟨_, h⟩ := p.addAnswers_cases l
  rw [h]

/-- Answers for which the queue has room stand behind those it holds. -/
theorem Port.addAnswers_of_room (p : Port) (l : List Answer) (h : p.answers.length + l.length ≤ 8) :
    p.addAnswers l = { p with answers := p.answers ++ l } := by
  induction l generalizing p with
  | nil => simp [Port.addAnswers]
  | cons a l ih =>
    rw [List.length_cons] at h
    have hp : p.addAnswer a = { p with answers := p.answers ++ [a] } := by
      rw [Port.addAnswer, if_pos (by show _ < 8; omega)]
    have hl := ih { p with answers := p.answers ++ [a] } (by simp; omega)
    simp only [Port.addAnswers, List.foldl_cons, hp] at hl ⊢
    rw [hl]
    simp

/-- The lists are set, the answers queued, and INTERVENTION DROPPED latched where an entry was lost. -/
theorem State.arbitrate_eq (s : State) (r : Arbitration) :
    s.arbitrate r = latchedIf (answered s r.ia r.answers) r.dropped 14 := by
  simp only [State.arbitrate, State.raiseIf_eq_latchedIf, answered, Event.bit]

/-! ## Demand frames -/

/-- Everything taking a demand frame can do: nothing for a repeat; else the frame is accepted, counted as a wrong counter,
taken as the third one that came with the 30 ms expiry, or resynchronises a LOST record. -/
theorem State.takeDemand_cases (s : State) (torque : BitVec 16) (mode flags : Byte) (counter : Nat) (together : Bool) :
    let out := s.takeDemand torque mode flags counter together
    (s.du.counterRef = some counter ∧ out = s) ∨
    (s.du.counterRef ≠ some counter ∧
      (out = s.acceptDemand torque mode flags counter ∨
       (s.du.demand.freshness = .stale ∧ together = true ∧ s.du.badRun = 2 ∧ out = s.thirdWrongAfterExpiry) ∨
       (s.du.demand.freshness = .fresh ∧ out = s.wrongCounter) ∨
       (s.du.demand.freshness = .lost ∧ out = s.resynchronise counter))) := by
  unfold State.takeDemand
  cases hr : s.du.counterRef with
  | none => simp
  | some ref =>
    by_cases hc : counter = ref
    · exact .inl ⟨by rw [hc], by simp [hc]⟩
    · refine .inr ⟨fun h => hc (Option.some.inj h).symm, ?_⟩
      cases hf : s.du.demand.freshness <;> simp only [hc, if_false] <;> (try split) <;> simp_all

/-! ## Service requests -/

/-- The request that the SU may begin. -/
theorem State.dueRequest_of_begins {s : State} {code : Byte} {r : Request} (h : Begins s code r) :
    s.dueRequest = some r := by
  obtain ⟨h1, h2, h3, h4, h5, h6⟩ := h
  simp [State.dueRequest, h3, h5, h6, h1, ServiceUnit.room]
  omega

/-- A request that begins is run. -/
theorem State.beginService_of_begins {s : State} {r : Request} (v : Service) (run : Request → State)
    (h : Begins s v.code r) : s.beginService v run = run r := by
  simp [State.beginService, State.dueRequest_of_begins h, h.code_eq]

/-- Everything beginning a service can do: nothing, or running the request at the head of the queue. -/
theorem State.beginService_cases (s : State) (v : Service) (run : Request → State) :
    s.beginService v run = s ∨ ∃ r, Begins s v.code r ∧ s.beginService v run = run r := by
  unfold State.beginService
  cases hd : s.dueRequest with
  | none => exact .inl rfl
  | some r =>
    by_cases hc : r.code = v.code
    · refine .inr ⟨r, ?_, by simp [hc]⟩
      unfold State.dueRequest at hd
      split at hd
      · rename_i h
        obtain ⟨h1, h2, h3, h4⟩ := h
        refine ⟨hd, hc, h1, ?_, h3, h4⟩
        simp [ServiceUnit.room, h1] at h2
        omega
      · simp at hd
    · exact .inl (by simp [hc])

theorem State.respond_eq_afterResponse (s : State) (r : Request) (v : ServiceResult) (p : List Byte) :
    s.respond r v p = afterResponse s r v (padTo 6 p) := rfl

theorem padTo_nil : padTo 6 [] = noPayload := rfl

/-! ## Resets -/

/-- Everything the beginning of a reset condition can do: nothing where it holds already, else the reset. -/
theorem State.beginReset_cases (s : State) (k : ResetKind) :
    (s.osc.holds k = true ∧ s.beginReset k = s) ∨ (s.osc.holds k = false ∧ s.beginReset k = s.enterReset k) := by
  unfold State.beginReset
  cases s.osc.holds k <;> simp

/-- Everything the end of a reset condition can do: nothing where it does not hold, else only the OSC changes. -/
theorem State.endReset_cases (s : State) (k : ResetKind) :
    (s.osc.holds k = false ∧ s.endReset k = s) ∨
    (s.osc.holds k = true ∧ s.endReset k = { s with osc :=
      { s.osc.setHold k false with checking := !(s.osc.setHold k false).held } }) := by
  unfold State.endReset
  cases s.osc.holds k <;> simp

@[simp] theorem OperatingState.setHold_device (o : OperatingState) (k : ResetKind) (b : Bool) :
    (o.setHold k b).device = o.device := by cases k <;> rfl

@[simp] theorem OperatingState.setHold_cause (o : OperatingState) (k : ResetKind) (b : Bool) :
    (o.setHold k b).cause = o.cause := by cases k <;> rfl

@[simp] theorem OperatingState.setHold_checking (o : OperatingState) (k : ResetKind) (b : Bool) :
    (o.setHold k b).checking = o.checking := by cases k <;> rfl

@[simp] theorem OperatingState.holds_setHold (o : OperatingState) (k : ResetKind) (b : Bool) :
    (o.setHold k b).holds k = b := by cases k <;> rfl

end Sys2Proof.Machine
end

