-- ==== Sys2Proof/Laws/Intervention.lean ====
section
/-! SUPPORT. The operations of the Intervention Arbiter: which entry a request forms, where an insertion lands, what a
search finds, what a removal leaves. -/

namespace Sys2Proof.Machine

/-! ## Frames -/

/-- A frame that the IA takes is handled by its action code at its clamped level. -/
theorem State.intervention_of_taken {s : State} {src : Source} (a : Byte) (f : InterventionFields)
    (h : InterventionTaken s src) :
    s.intervention src a f = s.arbitrate (Arbiter.act src a f s.ia (s.levelOf src f)) := by
  have hadmit : ∀ owner, s.checkFrame src [.sc, .tm] owner = owner s := by
    intro owner
    rcases h.1 with ht | ht
    · exact State.admit_of_taken owner ht (by simp)
    · exact State.admit_of_taken owner ht (by simp)
  simp [State.intervention, hadmit, State.takeIntervention, h.2]

/-- The four requests are one operation of the arbiter. -/
theorem exec_requestOf_of_taken {s : State} {src : Source} (k : InterventionKind) (f : InterventionFields)
    (h : InterventionTaken s src) :
    exec (requestOf k src f) s = .next (s.arbitrate (s.ia.request src k (s.levelOf src f) f)) := by
  cases k <;>
    simp [requestOf, exec, execAxleCap, execTotalCap, execShareHold, execRegenCut,
      State.intervention_of_taken _ f h, Arbiter.act]

/-- A release that the IA takes is one operation of the arbiter. -/
theorem exec_release_of_taken {s : State} {src : Source} (f : InterventionFields) (h : InterventionTaken s src) :
    exec (.release src f) s = .next (s.arbitrate (s.ia.release src f.tag)) := by
  simp [exec, execRelease, State.intervention_of_taken _ f h, Arbiter.act]

/-! What the IA reads of a state is the same after it has answered. -/

@[simp] theorem answered_ia (s : State) (ia : Arbiter) (l : List Answer) : (answered s ia l).ia = ia := rfl
@[simp] theorem answered_osc (s : State) (ia : Arbiter) (l : List Answer) : (answered s ia l).osc = s.osc := rfl
@[simp] theorem answered_cp (s : State) (ia : Arbiter) (l : List Answer) :
    (answered s ia l).cp = s.cp.addAnswers l := rfl

@[simp] theorem answered_bound (s : State) (ia : Arbiter) (l : List Answer) :
    (answered s ia l).bound = s.bound := by
  funext src r
  simp [answered, State.bound]

@[simp] theorem answered_levelOf (s : State) (ia : Arbiter) (l : List Answer) :
    (answered s ia l).levelOf = s.levelOf := by
  funext src f
  simp only [State.levelOf, State.levelRange, answered_bound]
  rfl

theorem interventionTaken_answered {s : State} {src : Source} (ia : Arbiter) (l : List Answer)
    (h : InterventionTaken s src) : InterventionTaken (answered s ia l) src := by
  simpa [InterventionTaken, FrameTaken] using h

/-- The entry a request forms is the one of R63. -/
theorem Arbiter.entryOf_eq_formedEntry (a : Arbiter) (k : InterventionKind) (src : Source) (f : InterventionFields)
    (level : Nat) : a.entryOf src k level f = formedEntry k src f level a.arrivals := by
  have hs : interventionAxles f.axleByte =
      (if f.axleByte.toNat % 16 = 1 then .front else if f.axleByte.toNat % 16 = 2 then .rear else .both) := by
    unfold interventionAxles
    split
    · rename_i h; simp [h]
    · rename_i h; simp [h]
    · rename_i h1 h2
      simp only [show ¬f.axleByte.toNat % 16 = 1 from h1, show ¬f.axleByte.toNat % 16 = 2 from h2, if_false]
  cases k <;>
    simp [entryOf, formedEntry, InterventionKind.axleOf, InterventionKind.valueOf, InterventionKind.noTransferFlag,
      holdOf, clampNat, noTransferOf, hs]

/-! ## Searching -/

theorem Entry.is_iff (e : Entry) (src : Source) (tag : Byte) :
    e.is src tag = true ↔ e.source = src ∧ e.tag = tag := by simp [Entry.is]

/-- An identity that neither list holds is not found. -/
theorem Arbiter.find_eq_none {a : Arbiter} {src : Source} {tag : Byte}
    (h : ∀ e ∈ a.stack ++ a.waiting, ¬(e.source = src ∧ e.tag = tag)) : a.find src tag = none := by
  have hn : ∀ l : List Entry, (∀ e ∈ l, e ∈ a.stack ++ a.waiting) → findEntry l src tag = none := by
    intro l hl
    refine List.find?_eq_none.2 fun e he hi => h e (hl e he) ?_
    simpa [Entry.is] using hi
  simp [Arbiter.find, hn a.stack (fun e he => by simp [he]), hn a.waiting (fun e he => by simp [he])]

/-- Within the laws of the lists an identity names one entry. -/
theorem ListLaws.entry_unique {a : Arbiter} (h : ListLaws a) {d e : Entry} (hd : d ∈ a.stack ++ a.waiting)
    (he : e ∈ a.stack ++ a.waiting) (hs : sameIdentity d e) : d = e := by
  obtain ⟨i, hi, rfl⟩ := List.getElem_of_mem hd
  obtain ⟨j, hj, rfl⟩ := List.getElem_of_mem he
  have hp := List.pairwise_iff_getElem.1 h.identities
  rcases lt_trichotomy i j with hij | rfl | hij
  · exact absurd hs (hp i j hi hj hij)
  · rfl
  · exact absurd ⟨hs.1.symm, hs.2.symm⟩ (hp j i hj hi hij)

/-- Within the laws of the lists, the entry with an entry's identity is that entry. -/
theorem ListLaws.is_iff_eq {a : Arbiter} (h : ListLaws a) {d e : Entry} (hd : d ∈ a.stack ++ a.waiting)
    (he : e ∈ a.stack ++ a.waiting) : d.is e.source e.tag = true ↔ d = e := by
  rw [Entry.is_iff]
  exact ⟨fun hi => h.entry_unique hd he hi, fun hi => hi ▸ ⟨rfl, rfl⟩⟩

theorem findEntry_of_unique {l : List Entry} {e : Entry} (he : e ∈ l)
    (hu : ∀ d ∈ l, d.is e.source e.tag = true → d = e) : findEntry l e.source e.tag = some e := by
  unfold findEntry
  cases hf : l.find? (·.is e.source e.tag) with
  | none => have := List.find?_eq_none.1 hf e he; simp [Entry.is] at this
  | some d =>
    have hd : d.is e.source e.tag = true := List.find?_some (p := fun x : Entry => x.is e.source e.tag) hf
    rw [hu d (List.mem_of_find?_eq_some hf) hd]

/-- No entry stands in both lists. -/
theorem ListLaws.not_mem_stack {a : Arbiter} (h : ListLaws a) {e : Entry} (he : e ∈ a.waiting) : e ∉ a.stack :=
  fun hs => (List.pairwise_append.1 h.identities).2.2 e hs e he ⟨rfl, rfl⟩

/-- A stack entry is found there. -/
theorem ListLaws.find_stack {a : Arbiter} (h : ListLaws a) {e : Entry} (he : e ∈ a.stack) :
    a.find e.source e.tag = some (e, .stack) := by
  have := findEntry_of_unique he fun d hd hi => (h.is_iff_eq (by simp [hd]) (by simp [he])).1 hi
  simp [Arbiter.find, this]

/-- A pending entry is found there. -/
theorem ListLaws.find_waiting {a : Arbiter} (h : ListLaws a) {e : Entry} (he : e ∈ a.waiting) :
    a.find e.source e.tag = some (e, .pending) := by
  have hw := findEntry_of_unique he fun d hd hi => (h.is_iff_eq (by simp [hd]) (by simp [he])).1 hi
  have hs : findEntry a.stack e.source e.tag = none := by
    refine List.find?_eq_none.2 fun d hd hi => ?_
    have := (h.is_iff_eq (by simp [hd]) (by simp [he])).1 hi
    exact h.not_mem_stack he (this ▸ hd)
  simp [Arbiter.find, hs, hw]

/-! ## Inserting and dropping -/

/-- The order of the Pending List (R65). -/
abbrev WaitingOrder (x y : Entry) : Prop := x.level < y.level ∨ (x.level = y.level ∧ x.order < y.order)

/-- An insertion adds the entry and nothing else. -/
theorem insertWaiting_perm (e : Entry) (l : List Entry) : (insertWaiting e l).Perm (e :: l) := by
  induction l with
  | nil => simp [insertWaiting]
  | cons x l ih =>
    simp only [insertWaiting]
    split
    · rfl
    · exact (ih.cons x).trans (List.Perm.swap e x l)

/-- An insertion keeps the order of the Pending List. -/
theorem insertWaiting_ordered {e : Entry} {l : List Entry} (h : l.Pairwise WaitingOrder)
    (hne : ∀ x ∈ l, x.order ≠ e.order) : (insertWaiting e l).Pairwise WaitingOrder := by
  induction l with
  | nil => simp [insertWaiting]
  | cons x l ih =>
    rw [List.pairwise_cons] at h
    simp only [insertWaiting]
    split
    · rename_i ha
      simp only [Entry.ahead, decide_eq_true_eq] at ha
      refine List.pairwise_cons.2 ⟨fun y hy => ?_, List.pairwise_cons.2 h⟩
      rcases List.mem_cons.1 hy with rfl | hy
      · exact ha
      · have := h.1 y hy
        simp only [WaitingOrder] at this ⊢
        omega
    · rename_i ha
      simp only [Entry.ahead, decide_eq_true_eq] at ha
      refine List.pairwise_cons.2 ⟨fun y hy => ?_, ih h.2 fun y hy => hne y (by simp [hy])⟩
      rcases List.mem_cons.1 ((insertWaiting_perm e l).mem_iff.1 hy) with rfl | hy
      · have := hne x (by simp)
        simp only [WaitingOrder]
        omega
      · exact h.1 y hy

/-- Everything seeking a place can come to (R69). -/
theorem seekPlace_cases (l : List Entry) (e : Entry) :
    (l.length < 6 ∧ seekPlace l e = (insertWaiting e l, true, none)) ∨
    (6 ≤ l.length ∧ ∃ last, l.getLast? = some last ∧ e.level < last.level ∧
      seekPlace l e = (insertWaiting e l.dropLast, true, some last)) ∨
    (6 ≤ l.length ∧ ∃ last, l.getLast? = some last ∧ last.level ≤ e.level ∧ seekPlace l e = (l, false, none)) := by
  by_cases h : l.length < 6
  · exact .inl ⟨h, by rw [seekPlace, if_pos h]⟩
  · obtain ⟨last, hl⟩ : ∃ last, l.getLast? = some last := by
      cases hl : l.getLast? with
      | none => rw [List.getLast?_eq_none_iff] at hl; simp [hl] at h
      | some last => exact ⟨last, rfl⟩
    by_cases hc : e.level < last.level
    · exact .inr (.inl ⟨by omega, last, hl, hc, by rw [seekPlace, if_neg h]; simp [hl, hc]⟩)
    · exact .inr (.inr ⟨by omega, last, hl, by omega, by rw [seekPlace, if_neg h]; simp [hl, hc]⟩)

/-- Dropping an identity leaves the other entries in their order. -/
theorem dropEntry_sublist (l : List Entry) (src : Source) (tag : Byte) : (dropEntry l src tag).Sublist l :=
  List.filter_sublist

theorem not_mem_dropEntry {l : List Entry} {src : Source} {tag : Byte} {e : Entry} (h : e ∈ dropEntry l src tag) :
    ¬(e.source = src ∧ e.tag = tag) := by
  have := (List.mem_filter.1 h).2
  simpa [Entry.is, imp_iff_not_or] using this

/-- Admission moves entries from the front of the Pending List to the top of the stack and answers them, and no others:
the two lists together hold what they held. -/
theorem admitFrom_perm (stack waiting : List Entry) :
    ((admitFrom stack waiting).1 ++ (admitFrom stack waiting).2.1).Perm (stack ++ waiting) := by
  induction waiting generalizing stack with
  | nil => simp [admitFrom]
  | cons e rest ih =>
    rw [admitFrom]
    split
    · exact (ih (e :: stack)).trans (by simpa using (List.perm_middle (l₁ := stack)).symm)
    · rfl

end Sys2Proof.Machine
end

