-- ==== Sys2Proof/Laws/Links.lean ====
section
/-! SUPPORT. The operations of the Axle Link Controllers: what a slot result does to a link, which blocks a slot, a report
frame or an opening can change, and when a report frame is good. -/

namespace Sys2Proof.Machine

/-! ## Slot results -/

/-- A good result, at any slot: the link as it stands after it, and what slot 7 hands on. -/
theorem Link.result_good (l : Link) (bit : Bool) :
    l.result true bit = if l.position = 7 then (goodSlot l bit).settle else (goodSlot l bit, none) := by
  have h : ({ l.count true with state := (l.count true).nextState true }).collect true bit = goodSlot l bit := by
    cases hst : l.state <;> cases bit <;>
      simp [Link.count, Link.nextState, goodSlot, hst, Link.collect, flagBit]
  have hl : ¬(l.state ≠ .lost ∧ (l.count true).nextState true = .lost) := by
    cases hst : l.state <;> simp [Link.count, Link.nextState, hst]
    all_goals split <;> simp
  simp only [Link.result, if_neg hl, h]

/-- A good result never enters IMPAIRED or LOST. -/
theorem goodSlot_state (l : Link) (bit : Bool) (st : LinkState) (hs : st = .impaired ∨ st = .lost) (h : l.state ≠ st) :
    (goodSlot l bit).state ≠ st := by
  rcases hs with rfl | rfl <;> cases hl : l.state <;> simp_all [goodSlot] <;> split <;> simp

/-- A bad result, at any slot. -/
theorem Link.result_bad (l : Link) (bit : Bool) : l.result false bit = (badSlot l, none) := by
  by_cases h7 : l.position = 7 <;> by_cases hb : 7 ≤ l.badRun <;> cases hst : l.state <;>
    simp [Link.result, Link.count, Link.nextState, badSlot, hst, Link.collect, h7, Link.settle, Link.forget, hb]

/-- Whatever the result, a link keeps its frame number, its loopback, its test count, its far error counter, its speed, its
sent frame and word, and its slot is settled. -/
theorem Link.result_keeps (l : Link) (good bit : Bool) :
    (l.result good bit).1.position = l.position ∧ (l.result good bit).1.loop = l.loop ∧
    (l.result good bit).1.testCount = l.testCount ∧ (l.result good bit).1.farErrors = l.farErrors ∧
    (l.result good bit).1.speed = l.speed ∧ (l.result good bit).1.sentFrame = l.sentFrame ∧
    (l.result good bit).1.sentWord = l.sentWord ∧ (l.result good bit).1.line = l.line ∧
    (l.result good bit).1.slot = .settled := by
  cases good
  · rw [Link.result_bad]; simp [badSlot]
  · unfold Link.result Link.count Link.collect Link.settle Link.forget
    simp only [if_true]
    split <;> split <;> (try split) <;> simp

/-! ## What a slot result does to the state -/

/-- The inverter state that bits 2..0 of a word code for. -/
theorem inverterOfCode_eq (w : Byte) : inverterOfCode (w.toNat % 8) = inverterOfWord w := by
  have h : w.toNat % 8 < 8 := Nat.mod_lt _ (by omega)
  unfold inverterOfWord
  generalize w.toNat % 8 = n at *
  interval_cases n <;> rfl

/-- A bad slot result of a link, with its events and what an entry into LOST clears. -/
theorem State.slotResult_bad (s : State) (x : Axle) (bit : Bool) :
    s.slotResult x false bit = afterBadSlot s x := by
  simp only [State.slotResult, Link.result_bad, afterBadSlot, State.raiseIf_eq_latchedIf]
  have h1 : ((s.links.get x).state != .impaired && (badSlot (s.links.get x)).state == .impaired) =
      ((s.links.get x).state == .up && (badSlot (s.links.get x)).state == .impaired) := by
    cases hst : (s.links.get x).state <;> simp [badSlot, hst] <;> rfl
  have h2 : ((s.links.get x).state != .lost && (badSlot (s.links.get x)).state == .lost) =
      ((s.links.get x).state == .impaired && (badSlot (s.links.get x)).state == .lost) := by
    cases hst : (s.links.get x).state <;> simp [badSlot, hst] <;> rfl
  rw [h1, h2]
  cases x <;> rfl

/-- A good slot result of a link, with what slot 7 settles. -/
theorem State.slotResult_good (s : State) (x : Axle) (bit : Bool) :
    s.slotResult x true bit = afterGoodSlot s x bit := by
  have hi := goodSlot_state (s.links.get x) bit .impaired (.inl rfl)
  have hl := goodSlot_state (s.links.get x) bit .lost (.inr rfl)
  have h1 : ((s.links.get x).state != .impaired && ((s.links.get x).result true bit).1.state == .impaired) = false := by
    rw [Link.result_good, Link.settle]; split <;> (try split) <;> simpa using hi
  have h2 : ((s.links.get x).state != .lost && ((s.links.get x).result true bit).1.state == .lost) = false := by
    rw [Link.result_good, Link.settle]; split <;> (try split) <;> simpa using hl
  simp only [State.slotResult, h1, h2, State.raiseIf, Bool.false_eq_true, if_false, afterGoodSlot]
  rw [Link.result_good]
  by_cases h7 : (s.links.get x).position = 7
  · simp only [h7, if_true, settledSuperframe, Axles.get_set, Axles.set_set, Link.settle]
    generalize hg : goodSlot (s.links.get x) bit = g
    cases hc : g.complete
    · simp [latchedIf]
    · by_cases hp : g.prevWord = some g.received
      · cases g.loop <;>
          simp [hp, State.handWord, State.setInverter, inverterOfCode_eq, State.raiseIf_eq_latchedIf, Event.bit,
            latchedIf, Axles.set_set, Bool.and_comm]
        rfl
      · simp [hp, latchedIf]
  · simp [h7]

/-! ## Which blocks change -/

theorem State.setInverter_frame (s : State) (x : Axle) (v : InverterState) :
    ∃ cu eu, s.setInverter x v = { s with cu := cu, eu := eu } := by
  unfold State.setInverter State.raiseIf
  dsimp only
  split
  · exact ⟨_, _, rfl⟩
  · exact ⟨_, s.eu, rfl⟩

theorem State.handWord_frame (s : State) (x : Axle) (w : Byte) :
    ∃ links cu eu, s.handWord x w = { s with links := links, cu := cu, eu := eu } := by
  unfold State.handWord
  dsimp only
  split
  · obtain ⟨cu, eu, h⟩ := State.setInverter_frame
      { s with links := s.links.set x { s.links.get x with ackVerified := false } } x (inverterOfCode (w.toNat % 8))
    exact ⟨_, cu, eu, h⟩
  · obtain ⟨cu, eu, h⟩ := State.setInverter_frame
      { s with links := s.links.set x { s.links.get x with ackVerified := w.getLsbD 3 } } x
      (inverterOfCode (w.toNat % 8))
    exact ⟨_, cu, eu, h⟩
  · exact ⟨s.links, s.cu, s.eu, rfl⟩
  · exact ⟨s.links, s.cu, s.eu, rfl⟩

theorem State.raiseIf_frame (s : State) (b : Bool) (e : Event) : ∃ eu, s.raiseIf b e = { s with eu := eu } := by
  cases b
  · exact ⟨s.eu, rfl⟩
  · exact ⟨_, rfl⟩

/-- A slot result changes the links, the capabilities and the events, and nothing else. -/
theorem State.slotResult_frame (s : State) (x : Axle) (good bit : Bool) :
    ∃ links cu eu, s.slotResult x good bit = { s with links := links, cu := cu, eu := eu } := by
  unfold State.slotResult
  dsimp only
  generalize hL : s.links.set x ((s.links.get x).result good bit).1 = L
  generalize hC : (if ((s.links.get x).state != .lost && ((s.links.get x).result good bit).1.state == .lost) = true then
    s.cu.set x .reset else s.cu) = C
  obtain ⟨eu1, h1⟩ := State.raiseIf_frame { s with links := L, cu := C }
    ((s.links.get x).state != .impaired && ((s.links.get x).result good bit).1.state == .impaired) (.linkImpaired x)
  rw [h1]
  obtain ⟨eu2, h2⟩ := State.raiseIf_frame { s with links := L, cu := C, eu := eu1 }
    ((s.links.get x).state != .lost && ((s.links.get x).result good bit).1.state == .lost) (.linkLost x)
  rw [h2]
  split
  · exact ⟨_, _, _, rfl⟩
  · rename_i w _
    obtain ⟨links, cu, eu, h3⟩ := State.handWord_frame { s with links := L, cu := C, eu := eu2 } x w
    exact ⟨links, cu, eu, h3⟩

/-- A sample changes the SE and the events, and nothing else. -/
theorem State.takeSample_frame (s : State) (x : Axle) (v : Int) :
    ∃ se eu, s.takeSample x v = { s with se := se, eu := eu } := by
  unfold State.takeSample
  split
  · dsimp only
    generalize s.se.axle.set x _ = A
    obtain ⟨eu1, h1⟩ := State.raiseIf_frame { s with se := { s.se with axle := A } } _ .filterSaturated
    rw [h1]
    obtain ⟨eu2, h2⟩ := State.raiseIf_frame { s with se := { s.se with axle := A }, eu := eu1 } _ .slipEntered
    rw [h2]
    exact ⟨_, _, rfl⟩
  · exact ⟨s.se, s.eu, rfl⟩

/-- A good report frame's contents change the links, the capabilities, the SE and the events, and nothing else. -/
theorem State.handReport_frame (s : State) (x : Axle) (r : ReportFrame) :
    ∃ links cu se eu, s.handReport x r = { s with links := links, cu := cu, se := se, eu := eu } := by
  unfold State.handReport
  dsimp only
  split
  · generalize hL : s.links.set x { s.links.get x with farErrors := _, speed := r.speed } = L
    generalize hC : s.cu.set x ((s.cu.get x).report r.drive.toNat r.regen.toNat) = C
    obtain ⟨se, eu, h⟩ := State.takeSample_frame { s with links := L, cu := C } x r.speed
    exact ⟨L, C, se, eu, h⟩
  · exact ⟨_, s.cu, s.se, s.eu, rfl⟩

/-- The end of a slot changes the links, the capabilities and the events, and nothing else. -/
theorem State.endSlot_frame (s : State) (x : Axle) :
    ∃ links cu eu, s.endSlot x = { s with links := links, cu := cu, eu := eu } := by
  unfold State.endSlot
  split
  · exact State.slotResult_frame s x false false
  · exact ⟨_, s.cu, s.eu, rfl⟩
  · exact ⟨s.links, s.cu, s.eu, rfl⟩
  · exact ⟨s.links, s.cu, s.eu, rfl⟩

/-- The opening of a slot changes the links, the capabilities and the events, and nothing else. -/
theorem State.openSlot_frame (s : State) (x : Axle) (position : Nat) (e : BitVec 32) :
    ∃ links cu eu, s.openSlot x position e = { s with links := links, cu := cu, eu := eu } := by
  unfold State.openSlot State.takeLooped
  dsimp only
  generalize s.links.set x _ = L
  split
  · split
    · obtain ⟨links, cu, eu, h⟩ := State.slotResult_frame { s with links := L } x true _
      exact ⟨links, cu, eu, h⟩
    · obtain ⟨links, cu, eu, h⟩ := State.slotResult_frame { s with links := L } x false false
      exact ⟨links, cu, eu, h⟩
  · exact ⟨L, s.cu, s.eu, rfl⟩

/-! ## Report frames -/

theorem getLast?_of_length_eight {b : List Byte} (h : b.length = 8) : b.getLast? = some (b.getD 7 0#8) := by
  rw [List.getLast?_eq_getElem?, h]
  simp [List.getD, List.getElem?_eq_getElem (show 7 < b.length by omega)]

/-- In normal operation a complete report frame is good exactly by the two checks of R118. -/
theorem Link.goodReport_iff {l : Link} {bytes : List Byte} (h : bytes.length = 8) (ho : l.loop = .opened) :
    l.goodReport (readReport (bytes.take 8)) = true ↔ GoodReport l bytes := by
  have ht : bytes.take 8 = bytes := by rw [List.take_of_length_le (by omega)]
  have hd : bytes.dropLast = bytes.take 7 := by rw [List.dropLast_eq_take, h]
  simp [Link.goodReport, readReport, ht, ho, GoodReport, h, checkOk, getLast?_of_length_eight h, hd, byteAt]
  intro _
  exact eq_comm

end Sys2Proof.Machine
end

