-- ==== Sys2Proof/Laws/Memory.lean ====
section
/-! SUPPORT. The cells of the Calibration Store: every operation keeps their canonical form, a byte that is written reads
back, and every other byte reads as before. -/

namespace Sys2Proof.Machine

/-! ## The canonical form, as facts about the list -/

/-- Rising addresses, said of every pair of cells. -/
theorem cellsRising_iff (l : List Host.Cell) : cellsRising l = true ↔ l.Pairwise (fun a b => a.1 < b.1) := by
  induction l with
  | nil => simp [cellsRising]
  | cons a r ih =>
    cases r with
    | nil => simp [cellsRising]
    | cons b r =>
      obtain ⟨x, v⟩ := a
      obtain ⟨y, w⟩ := b
      simp only [cellsRising, Bool.and_eq_true, decide_eq_true_eq, ih]
      rw [List.pairwise_cons (a := (x, v))]
      refine ⟨fun h => ⟨fun c hc => ?_, h.2⟩, fun h => ⟨h.1 (y, w) (by simp), h.2⟩⟩
      rcases List.mem_cons.1 hc with rfl | hc
      · exact h.1
      · exact lt_trans h.1 ((List.pairwise_cons.1 h.2).1 c hc)

/-- The canonical form: rising addresses inside the store, and no erased byte listed. -/
theorem Memory.wf_iff (l : List Host.Cell) :
    Memory.wf l = true ↔ l.Pairwise (fun a b => a.1 < b.1) ∧ ∀ c ∈ l, c.1 < storeSize ∧ c.2 ≠ erasedByte := by
  simp only [Memory.wf, Bool.and_eq_true, cellsRising_iff, List.all_eq_true, decide_eq_true_eq]

theorem Memory.wf_nil : Memory.wf [] = true := rfl

/-! ## Writing a byte -/

/-- The cells listed after a byte is written are those listed before, and the byte's own. -/
theorem mem_writeCell {l : List Host.Cell} {a : Nat} {b : Byte} {c : Host.Cell} (h : c ∈ writeCell l a b) :
    (c = (a, b) ∧ b ≠ erasedByte) ∨ c ∈ l := by
  induction l with
  | nil =>
    simp only [writeCell, consCell] at h
    split at h
    · simp at h
    · simp at h; exact .inl ⟨h, ‹_›⟩
  | cons x l ih =>
    obtain ⟨y, v⟩ := x
    simp only [writeCell] at h
    split at h
    · simp only [consCell] at h
      split at h
      · exact .inr h
      · rcases List.mem_cons.1 h with h | h
        · exact .inl ⟨h, ‹_›⟩
        · exact .inr h
    · split at h
      · simp only [consCell] at h
        split at h
        · exact .inr (List.mem_cons_of_mem _ h)
        · rcases List.mem_cons.1 h with h | h
          · exact .inl ⟨h, ‹_›⟩
          · exact .inr (List.mem_cons_of_mem _ h)
      · rcases List.mem_cons.1 h with h | h
        · exact .inr (by simp [h])
        · rcases ih h with h | h
          · exact .inl h
          · exact .inr (List.mem_cons_of_mem _ h)

theorem writeCell_rising {l : List Host.Cell} (a : Nat) (b : Byte) (h : l.Pairwise (fun x y => x.1 < y.1)) :
    (writeCell l a b).Pairwise (fun x y => x.1 < y.1) := by
  induction l with
  | nil => simp only [writeCell, consCell]; split <;> simp
  | cons x l ih =>
    obtain ⟨y, v⟩ := x
    rw [List.pairwise_cons] at h
    simp only [writeCell]
    split
    · rename_i hlt
      simp only [consCell]
      split
      · exact List.pairwise_cons.2 h
      · refine List.pairwise_cons.2 ⟨fun c hc => ?_, List.pairwise_cons.2 h⟩
        rcases List.mem_cons.1 hc with rfl | hc
        · exact hlt
        · exact lt_trans hlt (h.1 c hc)
    · split
      · rename_i hnlt heq
        simp only [consCell]
        split
        · exact h.2
        · exact List.pairwise_cons.2 ⟨fun c hc => by have := h.1 c hc; simp only at this ⊢; omega, h.2⟩
      · rename_i hnlt hne
        refine List.pairwise_cons.2 ⟨fun c hc => ?_, ih h.2⟩
        rcases mem_writeCell hc with ⟨rfl, _⟩ | hc
        · simp only; omega
        · exact h.1 c hc

/-- Writing a byte inside the store keeps the canonical form. -/
theorem Memory.wf_writeCell {l : List Host.Cell} {a : Nat} (b : Byte) (h : Memory.wf l = true) (ha : a < storeSize) :
    Memory.wf (writeCell l a b) = true := by
  rw [Memory.wf_iff] at h ⊢
  refine ⟨writeCell_rising a b h.1, fun c hc => ?_⟩
  rcases mem_writeCell hc with ⟨rfl, hb⟩ | hc
  · exact ⟨ha, hb⟩
  · exact h.2 c hc

/-- Writing bytes inside the store keeps the canonical form. -/
theorem Memory.wf_writeCells {l : List Host.Cell} {a : Nat} (data : List Byte) (h : Memory.wf l = true)
    (ha : a + data.length ≤ storeSize) : Memory.wf (writeCells l a data) = true := by
  induction data generalizing l a with
  | nil => exact h
  | cons b r ih =>
    rw [List.length_cons] at ha
    exact ih (Memory.wf_writeCell b h (by omega)) (by omega)

/-! ## Reading -/

/-- A byte below every listed address reads as erased. -/
theorem readCell_of_lt {l : List Host.Cell} {a : Nat} (h : ∀ c ∈ l, a < c.1) : readCell l a = erasedByte := by
  induction l with
  | nil => rfl
  | cons x l ih =>
    obtain ⟨y, v⟩ := x
    have hx := h (y, v) (by simp)
    rw [readCell, if_neg (by simp only at hx; omega)]
    exact ih fun c hc => h c (List.mem_cons_of_mem _ hc)

theorem readCell_consCell (l : List Host.Cell) (a : Nat) (b : Byte) (a' : Nat) (h : ∀ c ∈ l, a < c.1) :
    readCell (consCell a b l) a' = if a' = a then b else readCell l a' := by
  unfold consCell
  split
  · rename_i hb
    split
    · rename_i ha; rw [ha, hb]; exact readCell_of_lt h
    · rfl
  · rw [readCell]
    by_cases ha : a = a' <;> simp [ha, eq_comm]

/-- A byte that is written reads back, and every other byte reads as before. -/
theorem readCell_writeCell {l : List Host.Cell} (a : Nat) (b : Byte) (a' : Nat)
    (h : l.Pairwise (fun x y => x.1 < y.1)) :
    readCell (writeCell l a b) a' = if a' = a then b else readCell l a' := by
  induction l with
  | nil => exact readCell_consCell [] a b a' (by simp)
  | cons x l ih =>
    obtain ⟨y, v⟩ := x
    rw [List.pairwise_cons] at h
    simp only [writeCell]
    split
    · rename_i hlt
      refine readCell_consCell _ a b a' fun c hc => ?_
      rcases List.mem_cons.1 hc with rfl | hc
      · exact hlt
      · exact lt_trans hlt (h.1 c hc)
    · split
      · rename_i hnlt heq
        rw [readCell_consCell _ a b a' fun c hc => by have := h.1 c hc; simp only at this; omega]
        split
        · rfl
        · rw [readCell, if_neg (by omega)]
      · rename_i hnlt hne
        simp only [readCell]
        split
        · rename_i hy; rw [if_neg (by omega)]
        · exact ih h.2

/-- Bytes that are written from an address upward read back, and every other byte reads as before. -/
theorem readCell_writeCells {l : List Host.Cell} (a : Nat) (data : List Byte) (a' : Nat)
    (h : l.Pairwise (fun x y => x.1 < y.1)) :
    readCell (writeCells l a data) a' =
      if a ≤ a' ∧ a' < a + data.length then data.getD (a' - a) 0#8 else readCell l a' := by
  induction data generalizing l a with
  | nil => rw [if_neg (by simp)]; rfl
  | cons b r ih =>
    rw [writeCells, ih (a + 1) (writeCell_rising a b h), readCell_writeCell a b a' h]
    by_cases h1 : a' = a
    · subst h1; simp
    · by_cases h2 : a + 1 ≤ a' ∧ a' < a + 1 + r.length
      · rw [if_pos h2, if_pos (by simp; omega), show a' - a = (a' - (a + 1)) + 1 by omega]
        simp
      · rw [if_neg h2, if_neg h1, if_neg (by simp; omega)]

/-! ## Erasing a sector -/

/-- Erasing a sector keeps the canonical form. -/
theorem Memory.wf_eraseCells {l : List Host.Cell} (k : Nat) (h : Memory.wf l = true) :
    Memory.wf (eraseCells l k) = true := by
  rw [Memory.wf_iff] at h ⊢
  exact ⟨h.1.filter _, fun c hc => h.2 c (List.mem_filter.1 hc).1⟩

/-- No cell of an erased sector is listed. -/
theorem eraseCells_blank (l : List Host.Cell) (k : Nat) : ∀ c ∈ eraseCells l k, c.1 / 256 ≠ k := by
  intro c hc
  simpa [eraseCells] using (List.mem_filter.1 hc).2

/-- A byte of an erased sector reads as erased, and every other byte as before. -/
theorem readCell_eraseCells (l : List Host.Cell) (k a : Nat) :
    readCell (eraseCells l k) a = if a / 256 = k then erasedByte else readCell l a := by
  induction l with
  | nil => simp [eraseCells, readCell]
  | cons x l ih =>
    obtain ⟨y, v⟩ := x
    unfold eraseCells at ih ⊢
    by_cases hk : y / 256 = k
    · rw [List.filter_cons_of_neg (by simpa using hk), ih]
      split
      · rfl
      · rw [readCell, if_neg (fun e => by subst e; exact absurd hk ‹_›)]
    · rw [List.filter_cons_of_pos (by simpa using hk)]
      simp only [readCell]
      split
      · rename_i e; subst e; rw [if_neg hk]
      · exact ih

/-! ## The operations of the store -/

theorem Store.damage_wf {c : Store} (k : Nat) (h : Memory.wf c.cells = true) : Memory.wf (c.damage k).cells = true :=
  Memory.wf_eraseCells k h

theorem Store.endErase_wf {c : Store} (k : Nat) (ok : Bool) (h : Memory.wf c.cells = true) :
    Memory.wf (c.endErase k ok).cells = true := Memory.wf_eraseCells k h

theorem Store.endBulkErase_wf {c : Store} (a b d e : Bool) (h : Memory.wf c.cells = true) :
    Memory.wf (c.endBulkErase a b d e).cells = true :=
  Store.endErase_wf 3 e (Store.endErase_wf 2 d (Store.endErase_wf 1 b (Store.endErase_wf 0 a h)))

theorem Store.endWrite_wf {c : Store} {k o : Nat} {data : List Byte} (h : Memory.wf c.cells = true)
    (hk : storeAddress k o + data.length ≤ storeSize) : Memory.wf (c.endWrite k o data).cells = true :=
  Memory.wf_writeCells data h hk

/-- An abandoned operation keeps the canonical form. -/
theorem Store.abandon_wf {c : Store} (op : Option Operation) (h : Memory.wf c.cells = true) :
    Memory.wf (c.abandon op).cells = true := by
  unfold Store.abandon
  split
  · exact Store.damage_wf _ h
  · exact Store.damage_wf _ h
  · exact Store.damage_wf 3 (Store.damage_wf 2 (Store.damage_wf 1 (Store.damage_wf 0 h)))
  all_goals exact h

theorem reset_memory_wf : Memory.wf State.reset.store.cells = true := rfl

end Sys2Proof.Machine
end

