-- ==== Sys2Proof/Laws/Pass.lean ====
section
/-! SUPPORT. The arithmetic of the control pass: minima over stack entries, the split, the effective windows, the power
factor, and which blocks the completion of a pass can change. -/

namespace Sys2Proof.Machine

/-! ## Minima -/

theorem smallest_eq_none (l : List Nat) : smallest l = none ↔ l = [] := by
  cases l with
  | nil => simp [smallest]
  | cons x r => simp only [smallest]; cases smallest r <;> simp

/-- The smallest value of a list is in it and below every other. -/
theorem smallest_eq_some {l : List Nat} {m : Nat} (h : smallest l = some m) : m ∈ l ∧ ∀ x ∈ l, m ≤ x := by
  induction l generalizing m with
  | nil => simp [smallest] at h
  | cons x r ih =>
    simp only [smallest] at h
    cases hr : smallest r with
    | none =>
      rw [hr] at h
      simp only [Option.some.injEq] at h
      rw [smallest_eq_none] at hr
      simp [hr, h]
    | some y =>
      rw [hr] at h
      simp only [Option.some.injEq] at h
      obtain ⟨h1, h2⟩ := ih hr
      subst h
      refine ⟨?_, fun z hz => ?_⟩
      · rcases le_total x y with hxy | hxy
        · simp [hxy]
        · rw [min_eq_right hxy]; simp [h1]
      · rcases List.mem_cons.1 hz with rfl | hz
        · omega
        · have := h2 z hz; omega

/-! ## Parameters of the image, in their ranges -/

theorem Image.rates_pos (m : Image) (k : Mode) : 1 ≤ m.rateUp k ∧ 1 ≤ m.rateDown k := by
  simp [Image.rateUp, Image.rateDown, clampNat]

theorem Image.fallbackRamp_pos (m : Image) : 1 ≤ m.fallbackRamp := by simp [Image.fallbackRamp, clampNat]

theorem Image.splitValue_range (m : Image) (k : Mode) (n j : Nat) : 0 ≤ m.splitValue k n j ∧ m.splitValue k n j ≤ 1024 := by
  simp [Image.splitValue]

theorem Image.shareLimits_range (m : Image) (k : Mode) :
    0 ≤ m.shareLow k ∧ m.shareLow k ≤ 1024 ∧ 0 ≤ m.shareHigh k ∧ m.shareHigh k ≤ 1024 := by
  simp [Image.shareLow, Image.shareHigh]

/-! ## The split -/

/-- A part of a demand by a share of 0 to 1024 lies between 0 and the demand, and so does the rest. -/
theorem within_split (d b : Int) (h0 : 0 ≤ b) (h1 : b ≤ 1024) :
    Within ((d * b + 512) / 1024) d ∧ Within (d - (d * b + 512) / 1024) d := by
  simp only [Within]
  rcases le_total 0 d with hd | hd
  · have : 0 ≤ d * b := by positivity
    have : d * b ≤ d * 1024 := by nlinarith
    omega
  · have : d * b ≤ 0 := by nlinarith
    have : d * 1024 ≤ d * b := by nlinarith
    omega

/-! ## The effective windows -/

theorem windowLaw_closed : WindowLaw Window.closed := by simp [WindowLaw, Window.closed]

theorem Snapshot.cutWindow_law (p : Snapshot) (x : Axle) {w : Window} (h : WindowLaw w) : WindowLaw (p.cutWindow x w) := by
  simp only [Snapshot.cutWindow]
  split
  · obtain ⟨_, _, h3, h4⟩ := h
    exact ⟨by norm_num, by norm_num, h3, h4⟩
  · exact h

theorem Snapshot.capWindow_law (p : Snapshot) (x : Axle) {w : Window} (h : WindowLaw w) : WindowLaw (p.capWindow x w) := by
  obtain ⟨h1, h2, h3, h4⟩ := h
  simp only [Snapshot.capWindow]
  split
  · exact ⟨h1, h2, h3, h4⟩
  · simp only [WindowLaw]; omega

theorem Snapshot.rawWindow_law (p : Snapshot) (x : Axle) (hd : p.drive.get x ≤ 12000) (hr : p.regen.get x ≤ 12000) :
    WindowLaw (p.rawWindow x) := by
  simp only [Snapshot.rawWindow, truncDiv]
  split
  · simp only [WindowLaw]
    rw [Int.neg_tdiv, Int.tdiv_eq_ediv_of_nonneg (by omega), Int.tdiv_eq_ediv_of_nonneg (by omega)]
    omega
  · simp only [WindowLaw]; omega

/-- A window that R89 closes stays closed through the cuts and the cap. -/
theorem Snapshot.window_of_not_stands (p : Snapshot) (x : Axle) (h : p.windowStands x = false) : p.window x = ⟨0, 0⟩ := by
  simp only [Snapshot.window, h, Snapshot.cutWindow, Snapshot.capWindow, Window.closed]
  split <;> split <;> simp

/-! ## Completion -/

/-- The completion of a pass changes the OSC's device state, the DU, the AE and the events, and nothing else. -/
theorem State.completePass_frame (s : State) (p : Pass) : ∃ eu, s.completePass p =
    { s with osc := { s.osc with device := p.nextDevice s.osc.device }, du := p.completeDemand s.du,
             ae := p.completeEngine s.ae, eu := eu } := by
  simp only [State.completePass, State.raiseIf]
  split <;> split <;> exact ⟨_, rfl⟩

theorem Pass.completeDemand_heldDemand (p : Pass) (u : DemandUnit) :
    (p.completeDemand u).heldDemand = p.result.heldDemand := by
  simp only [Pass.completeDemand]
  split
  · rfl
  · split
    · rfl
    · split <;> rfl

end Sys2Proof.Machine
end

