-- ==== Sys2Proof/Tests/Slice0.lean ====
section
/-! SUPPORT. Tests: the checks of well-formedness, frames read by their layouts, the spec's worked figures, and for each
statement with hypotheses a state and operands that meet them, clause by clause. -/

namespace Sys2Proof.Tests

open Sys2Proof.Machine

/-! ## Well-formedness: one ill-formed term for each check -/

def fields : InterventionFields := ⟨0x0B#8, 2#8, 0x12#8, 5000#16, 50#8⟩

theorem test_refusedBadKind_needs_unknown_action :
    (Instr.refusedBadKind 2 4#8 fields).wellFormed = false ∧ (Instr.refusedBadKind 2 5#8 fields).wellFormed = true := by
  decide

theorem test_other_operation_is_no_known_one :
    (Instr.eventControlOtherOperation 1 1#8 0#16).wellFormed = false ∧
    (Instr.eventControlOtherOperation 1 2#8 0#16).wellFormed = false ∧
    (Instr.eventControlOtherOperation 1 3#8 0#16).wellFormed = true := by decide

theorem test_serviceRequest_needs_seven_parameters :
    (Instr.serviceRequest 6 0x23#8 [0#8, 0#8, 0#8, 0#8, 0#8, 0#8]).wellFormed = false ∧
    (Instr.serviceRequest 6 0x23#8 [0#8, 0#8, 0#8, 0#8, 0#8, 0#8, 0#8]).wellFormed = true := by decide

theorem test_reportFrame_needs_eight_bytes :
    (Instr.reportFrame .front [0#8, 0#8, 0#8, 0#8, 0#8, 0#8, 0#8]).wellFormed = false := by decide

theorem test_canFrame_identifier_in_format :
    (Instr.frameRejected ⟨2048, false, false, 0, []⟩).wellFormed = false ∧
    (Instr.frameRejected ⟨2048, true, false, 0, []⟩).wellFormed = true := by decide

theorem test_canFrame_length_code_has_four_bits :
    (Instr.frameRejected ⟨0x600, false, true, 16, []⟩).wellFormed = false ∧
    (Instr.frameRejected ⟨0x600, false, true, 15, []⟩).wellFormed = true := by decide

theorem test_canFrame_carries_its_length :
    (Instr.frameRejected ⟨0x600, false, false, 1, []⟩).wellFormed = false ∧
    (Instr.frameRejected ⟨0x600, false, true, 1, [0#8]⟩).wellFormed = false := by decide

/-! ## Frames, byte by byte from section 8.7.1 -/

theorem test_decode_demand : decodeFrame 0 1 [0xFF#8, 0x38#8, 2#8, 3#8, 0x0F#8] =
    some (.demand 1 (BitVec.ofInt 16 (-200)) 2#8 3#8 ⟨15#8, false⟩) := by decide

theorem test_decode_intervention : decodeFrame 4 2 [1#8, 0x0B#8, 2#8, 0x12#8, 0x13#8, 0x88#8, 50#8] =
    some (.axleCap 2 fields) := by decide

theorem test_decode_unknown_action : decodeFrame 4 2 [5#8, 0x0B#8, 2#8, 0x12#8, 0x13#8, 0x88#8, 50#8] =
    some (.refusedBadKind 2 5#8 fields) := by decide

theorem test_decode_acknowledge : decodeFrame 6 1 [2#8, 0x10#8, 0x40#8] = some (.acknowledge 1 0x1040#16) := by decide

theorem test_decode_wrong_length : decodeFrame 3 4 [0#8, 0#8] = none ∧ decodeFrame 8 1 [] = none := by decide

theorem test_no_table_word (n w : Nat) : decodeTableWord n w = none := rfl

/-! ## Figures that the spec works out -/

/-- R117: the reference values of the CRC-8. -/
theorem test_crc8_reference :
    crc8 [0x31#8, 0x32#8, 0x33#8, 0x34#8, 0x35#8, 0x36#8, 0x37#8, 0x38#8, 0x39#8] = 0xF4#8 ∧ crc8 [0xFF#8] = 0xF3#8 ∧
    crc8 [0xFF#8, 0xFF#8, 0xFF#8] = 0x0F#8 := by decide +kernel

/-- R165: the reference value of the CRC-32. -/
theorem test_crc32_reference :
    crc32 [0x31#8, 0x32#8, 0x33#8, 0x34#8, 0x35#8, 0x36#8, 0x37#8, 0x38#8, 0x39#8] = 0xCBF43926#32 := by decide +kernel

/-- R26: 1000 N·m with a ramp of 300 N·m goes 700, 400, 100, 0. -/
theorem test_ramp : (fun x => rampToZero x 300)^[3] 1000 = 100 ∧ (fun x => rampToZero x 300)^[4] 1000 = 0 := by decide

/-- R46: sums of −16 384 and −16 385 give 0 and −1. -/
theorem test_filter_rounding : floorDiv (-16384 + 16384) 32768 = 0 ∧ floorDiv (-16385 + 16384) 32768 = -1 := by decide

/-- R108: the bypass shortens a reduction and does not jump across zero. -/
theorem test_rate_limit :
    rateLimit true 100 5000 200 150 = 100 ∧ rateLimit true (-100) 5000 200 150 = 4850 ∧
    rateLimit false 0 (-100) 200 150 = 0 := by decide

/-! ## States for the witnesses -/

/-- An image whose unlisted bytes read 0xFF. -/
def blankImage : Image := ⟨[], Sectors.all false⟩

/-- DS at 1, SC at 2, BM at 3, TM at 4, ST at 6; the bounds of source 4 are the wrong way round. -/
def config : ChassisConfig :=
  { base := 0x600, own := 7,
    table := [⟨.none, 0, 7⟩, ⟨.ds, 0, 7⟩, ⟨.sc, 0, 5⟩, ⟨.bm, 0, 7⟩, ⟨.tm, 7, 4⟩, ⟨.none, 0, 7⟩, ⟨.st, 0, 7⟩,
              ⟨.none, 0, 7⟩] }

/-- The same with the bounds of source 2 the wrong way round. -/
def configSc : ChassisConfig :=
  { config with table := [⟨.none, 0, 7⟩, ⟨.ds, 0, 7⟩, ⟨.sc, 6, 5⟩, ⟨.bm, 0, 7⟩, ⟨.tm, 4, 7⟩] }

def linkUp : Link := { Link.reset with state := .up, goodRun := 4, slot := .settled }

/-- STANDBY with both links UP and their slots settled. -/
def base : State :=
  { State.reset with
    osc := ⟨.standby, .power, false, false, false, false⟩
    ae := { Engine.reset with passTimer := true }
    links := ⟨linkUp, linkUp⟩
    cp := { Port.reset with statusTimer := true, binding := some config.binding }
    image := some blankImage
    chassis := some config }

def inDevice (d : DeviceState) (s : State) : State := { s with osc := { s.osc with device := d } }

def withLists (stack waiting : List Entry) (s : State) : State := { s with ia := ⟨stack, waiting, 20⟩ }

def withQueue (r : Request) (op : Option Operation) (s : State) : State :=
  { s with su := { ServiceUnit.reset with queue := [r], operation := op } }

def withFront (f : Link → Link) (s : State) : State := { s with links := { s.links with front := f s.links.front } }

def request (code : Byte) (params : List Byte) : Request := ⟨6, code, params⟩

def entry (src : Source) (tag : Byte) (k : InterventionKind) (level order : Nat) : Entry :=
  { source := src, tag := tag, kind := k, level := level, axle := .both, value := 1000, noTransfer := false, hold := 100,
    order := order }

/-- ACTIVE with both windows open to 12 000 N·m both ways, 24 000 N·m demanded and 1 MW available; the blank image's share
is 1024. -/
def drive : Snapshot :=
  { base.snapshot with
    device := .active, demand := ⟨24000, .normal, true, true, .fresh⟩, limits := ⟨10000, 10000, .fresh⟩,
    drive := ⟨12000, 12000⟩, regen := ⟨12000, 12000⟩, inverter := ⟨.run, .derate⟩, speed := ⟨1000, 1000⟩ }


/-! ## Witnesses: resets and INIT -/

theorem witness_StepRunsFrontCommand : base.pending = [] := rfl

/-- Each reset from a state without its condition, and each release with it. -/
theorem witness_ResetsClearVolatileState :
    base.osc.supplyLow = false ∧ base.osc.pinLow = false ∧
    { base with osc := ⟨.init, .power, true, true, true, false⟩ }.osc.supplyLow = true ∧
    { base with osc := ⟨.init, .power, true, true, true, false⟩ }.osc.pinLow = true ∧
    { base with osc := ⟨.init, .power, true, true, true, false⟩ }.osc.restartPeriod = true := by decide

def sending (o : TxOrigin) (count : Nat) (s : State) : State :=
  { s with cp := { s.cp with transmission := some ⟨o, 0x660, [0#8]⟩, errorCount := count } }

def withResponse (r : Response) (s : State) : State := { s with su := { s.su with responses := [r] } }

theorem witness_RestartResetFollowsItsResponse :
    (∀ r ∈ [(⟨6, 0x30#8, .done, noPayload⟩ : Response), ⟨6, 0x30#8, .busy, noPayload⟩, ⟨6, 0x23#8, .done, noPayload⟩],
      let s := sending .response 0 (withResponse r base)
      s.cp.transmission = some ⟨.response, 0x660, [0#8]⟩ ∧ s.su.responses = [r] ∧
        s.osc.supplyLow = false ∧ s.osc.pinLow = false ∧ s.osc.restartPeriod = false) := by decide

theorem witness_ResetDamagesAbandonedOperation :
    (∀ op ∈ [some (.write 3 252 [1#8, 2#8, 3#8, 4#8]), some (.erase 0), some .bulkErase, some .lock, some .imageCheck, none],
      (withQueue (request 0x11#8 []) op (inDevice .service base)).osc.supplyLow = false ∧
      (withQueue (request 0x11#8 []) op (inDevice .service base)).osc.pinLow = false ∧
      (withQueue (request 0x11#8 []) op (inDevice .service base)).su.operation = op) := by decide

/-- The state after a reset; and with the roles of section 8.1's example, where DS stands at the sources 1 and 3, the binding
with the own source 7 and with the own source 1. -/
theorem witness_ImageCheckOfInitSetsDeviceAndLinks :
    State.reset.osc.checking = true ∧ (∀ x, (State.reset.links.get x).loop = .opened) ∧ base.cp.binding = some config.binding ∧
    (let table := [⟨.none, 0, 7⟩, ⟨.ds, 0, 7⟩, ⟨.sc, 0, 7⟩, ⟨.ds, 0, 7⟩, ⟨.bm, 0, 7⟩, ⟨.tm, 0, 7⟩, ⟨.st, 0, 7⟩]
     (ChassisConfig.binding ⟨0x600, 7, table⟩).ds = some 1 ∧ (ChassisConfig.binding ⟨0x600, 1, table⟩).ds = some 3) :=
  ⟨rfl, fun x => by cases x <;> rfl, rfl, by decide⟩

/-- R136: the base with its seven lowest bits 0, at most 0x780, and the own source at most 7. -/
theorem test_chassis_clamps :
    (let m : Image := ⟨writeCells [] 256 [0x06#8, 0x7F#8, 0x09#8], Sectors.all false⟩
     m.chassis.base = 0x600 ∧ m.chassis.own = 7) ∧ blankImage.chassis.base = 0x780 := by decide +kernel

/-- A store whose sectors 1 to 3 are blank, with the marker and the CRC-32 of 768 bytes 0xFF, which is 0xF9BE48FC. -/
def validStore : Store :=
  ⟨[(0, 0xA5#8), (1, 0x3C#8), (4, 0xF9#8), (5, 0xBE#8), (6, 0x48#8), (7, 0xFC#8)], ⟨.programmed, .erased, .erased, .erased⟩, false⟩

/-- The CRC-32 register after each 48 of 768 bytes 0xFF. -/
def crcTrail : List (BitVec 32) :=
  [4294967295#32, 434628641#32, 3106333487#32, 616037448#32, 4126437810#32, 1135840232#32, 3105090170#32, 1239754915#32, 1827065832#32,
   306806303#32, 4079059567#32, 605375716#32, 3515938442#32, 2971703620#32, 3974248647#32, 2393000426#32, 104969987#32]

theorem crcTrail_steps : ∀ k < 16,
    (List.replicate 48 0xFF#8).foldl crc32Byte (crcTrail.getD k 0#32) = crcTrail.getD (k + 1) 0#32 := by decide +kernel

theorem crcTrail_reached (k : Nat) (h : k ≤ 16) :
    (List.replicate (48 * k) 0xFF#8).foldl crc32Byte 0xFFFFFFFF#32 = crcTrail.getD k 0#32 := by
  induction k with
  | zero => rfl
  | succ k ih =>
    rw [Nat.mul_succ, ← List.replicate_append_replicate, List.foldl_append, ih (by omega), crcTrail_steps k (by omega)]

theorem crc32_blank : crc32 (List.replicate 768 0xFF#8) = 0xF9BE48FC#32 := by
  rw [crc32, crcTrail_reached 16 (by omega)]; decide

theorem byte_blank : ∀ k < 3, ∀ i < 256, validStore.image.byte (k + 1) i = 0xFF#8 := by decide +kernel

theorem sectorBytes_blank (k : Nat) (h : k < 3) : validStore.image.sectorBytes (k + 1) = List.replicate 256 0xFF#8 := by
  refine List.eq_replicate_iff.mpr ⟨by simp [Image.sectorBytes], fun b hb => ?_⟩
  obtain ⟨i, hi, rfl⟩ := List.mem_map.mp hb
  exact byte_blank k h i (List.mem_range.mp hi)

/-- A valid image exists: INIT can lead to STANDBY. -/
theorem witness_ImageValidityCriteria : validStore.image.valid = true ∧ (∀ cell ∈ State.reset.store.cells, 256 ≤ cell.1) ∧
    (base.store.damage 3).image.byte 3 0 = 0#8 ∧ base.store.image.byte 3 0 = 0xFF#8 := by
  refine ⟨?_, by simp [State.reset], by decide⟩
  have h : validStore.image.sectorBytes 1 ++ validStore.image.sectorBytes 2 ++ validStore.image.sectorBytes 3 =
      List.replicate 768 0xFF#8 := by
    simp only [sectorBytes_blank 0 (by omega), sectorBytes_blank 1 (by omega), sectorBytes_blank 2 (by omega),
      List.replicate_append_replicate]
  rw [Image.valid, h, crc32_blank]
  decide

/-! ## Witnesses: the control pass -/

def withPass (p : Snapshot) (s : State) : State := { s with ae := { s.ae with pass := some ⟨p, p.compute⟩ } }

theorem witness_PassBeginsFromSnapshot : base.ae.passTimer = true ∧ base.ae.pass = none := by decide

/-- Entry from STANDBY, exit from ACTIVE, and neither; a shortfall of the threshold's size and none. -/
theorem witness_PassCompletionPublishesResults :
    (withPass { drive with device := .standby, inverter := ⟨.ready, .fault⟩ } base).ae.pass.isSome = true ∧
    { drive with device := .standby, inverter := ⟨.ready, .fault⟩ }.demand.driveEnable = true ∧
    (let p : Snapshot := { drive with demand := { drive.demand with freshness := .lost } }
     p.compute.record.output = ⟨0, 0⟩) ∧
    drive.compute.record.output ≠ ⟨0, 0⟩ ∧
    (let p : Snapshot := { drive with image := ⟨[(256 + 0x5C, 0#8), (256 + 0x5D, 0#8)], Sectors.all false⟩ }
     p.image.shortfallThreshold ≤ (p.compute.record.unserved.natAbs : Int)) ∧
    ¬(let p : Snapshot := { drive with demand := { drive.demand with torque := 0 } }
      p.image.shortfallThreshold ≤ (p.compute.record.unserved.natAbs : Int)) := by decide +kernel

/-- No mode wanted, the current mode wanted, another one in STANDBY, another one in ACTIVE above the switch threshold of
the image in use, and a blend at its last pass. -/
theorem witness_PassCompletionSwitchesMode :
    { drive with demand := { drive.demand with freshness := .stale } }.pendingMode = none ∧
    drive.demand.freshness = .fresh ∧ drive.demand.mode = drive.mode ∧
    (let tow : Snapshot := { drive with demand := { drive.demand with mode := .tow } }
     { tow with device := .standby }.device = .standby ∧ tow.device ≠ .standby ∧
     (tow.compute.record.accepted.natAbs : Int) = tow.image.switchThreshold tow.mode ∧
     let m : Image := { blankImage with cells := [(256 + 0x1E, 0x5D#8), (256 + 0x1F, 0xBF#8)] }
     let t : Snapshot := { tow with image := m }
     ¬(t.compute.record.accepted.natAbs : Int) ≤ t.image.switchThreshold t.mode) ∧
    { drive with blend := ⟨true, 100, 249⟩ }.compute.blendCount = 250 ∧
    { drive with blend := ⟨true, 100, 248⟩ }.compute.blendCount = 249 := by decide +kernel

theorem witness_PassCompletionSwitchesMode_completes :
    ∃ t, exec .passCompletion (withPass drive (inDevice .active base)) = .next t := ⟨_, rfl⟩

def total (value : Nat) (level : Nat) : Entry :=
  { entry 2 1#8 .totalCap level 0 with value := value }

theorem witness_AcceptedDemandFollowsRecordAndCaps :
    drive.demand.freshness = .fresh ∧ drive.demand.driveEnable = true ∧
    { drive with demand := { drive.demand with driveEnable := false } }.demand.driveEnable = false ∧
    (∀ e ∈ drive.stack, e.kind ≠ .totalCap) ∧
    (let p : Snapshot := { drive with stack := [total 12000 1, total 0 3] }
     (total 0 3) ∈ p.stack ∧ ∀ e' ∈ p.stack, e'.kind = .totalCap → (total 0 3).value ≤ e'.value) ∧
    (∀ h ∈ [(-24000 : Int), 0, 24000],
      { drive with demand := { drive.demand with freshness := .lost }, heldDemand := h }.heldDemand = h) ∧
    (let p : Snapshot := { drive with demand := { drive.demand with freshness := .stale, driveEnable := false } }
     p.device = .active ∧ p.demand.freshness = .stale ∧ p.demand.driveEnable = false ∧ p.heldDemand = 0) := by decide

/-- With drive enable clear D_acc is 0 where the record is FRESH, or the held demand is 0; a STALE record holds the held demand
under R26, and D_acc is that held demand (R27). -/
theorem test_drive_enable_clear :
    let p (f : DemandFreshness) (held : Int) : Snapshot :=
      { drive with demand := ⟨24000, .normal, false, true, f⟩, heldDemand := held }
    (p .fresh 1000).accepted = 0 ∧ (p .stale 0).accepted = 0 ∧ (p .stale 1000).newHeld = 1000 ∧
    (p .stale 1000).accepted = 1000 ∧ (p .lost 1000).accepted = (p .lost 1000).newHeld := by decide

/-- Breakpoints 0, 160, 320, 640, 960, 1280, 1920, 2560 in 0.01 m/s. -/
def mapImage : Image :=
  ⟨writeCells [] (256 + 0x44)
    [0#8, 0#8, 0#8, 160#8, 1#8, 64#8, 2#8, 128#8, 3#8, 192#8, 5#8, 0#8, 7#8, 128#8, 10#8, 0#8], Sectors.all false⟩

theorem witness_BaseShareFollowsMapAndBlend :
    (List.range 8).map mapImage.breakpoint = [0, 160, 320, 640, 960, 1280, 1920, 2560] ∧
    (∀ v ∈ [(1 : Int), 159], mapImage.breakpoint 0 < v ∧ v < mapImage.breakpoint 7 ∧ v < mapImage.breakpoint 1) ∧
    (∀ v ∈ [(1920 : Int), 2559], v < mapImage.breakpoint 7 ∧ ∀ j < 6, mapImage.breakpoint (j + 1) ≤ v) ∧
    { drive with blend := ⟨true, 0, 249⟩ }.blend.count + 1 = 250 ∧ drive.reference.freshness = .absent ∧
    { drive with reference := ⟨⟨-32768, 5⟩, .stale⟩ }.mapSpeed = 32768 ∧
    (let m : Image := ⟨writeCells [] (256 + 0x54) [1#8, 44#8, 2#8, 88#8], Sectors.all false⟩
     m.loadThreshold1 = 300 ∧ m.loadThreshold2 = 600 ∧
     ∀ tb ∈ [(299, 1), (300, 2), (599, 2), (600, 3)],
       { drive with image := m, load := ⟨tb.1, true, .fresh⟩ }.loadBand = tb.2) ∧
    drive.load.freshness ≠ .fresh := by decide +kernel

theorem witness_SplitDividesAcceptedDemand :
    drive.share = 1024 ∧
    { drive with stack := [{ entry 2 1#8 .shareHold 1 0 with value := 0 }] }.share = 0 := by decide +kernel

theorem witness_WindowsAdmitZero :
    (∀ x, drive.drive.get x ≤ 12000 ∧ drive.regen.get x ≤ 12000) ∧
    drive.device = .active ∧ drive.link.front = .up ∧ drive.inverter = ⟨.run, .derate⟩ ∧
    drive.demand.regenPermitted = true ∧
    (let e := { entry 2 1#8 .axleCap 1 0 with axle := .rear, value := 0 }
     e.axle.names .front = false ∧ e.axle.names .rear = true) ∧
    (let e := { entry 2 1#8 .regenCut 1 0 with axle := .front }
     e.axle.names .front = true ∧ e.axle.names .rear = false) ∧
    (let p : Snapshot := { drive with link := ⟨.impaired, .up⟩, stack := [{ entry 2 1#8 .regenCut 1 0 with axle := .front },
       { entry 2 2#8 .axleCap 2 1 with value := 7000 }, { entry 2 3#8 .axleCap 3 2 with axle := .rear, value := 0 }] }
     p.window .front = ⟨0, 6000⟩ ∧ p.window .rear = ⟨0, 0⟩) :=
  ⟨fun x => by cases x <;> decide, by decide +kernel⟩

theorem witness_TransferKeepsTorqueWithinDemand :
    (0 ≤ drive.share ∧ drive.share ≤ 1024) ∧ (∀ x, WindowLaw (drive.window x)) ∧ drive.transferred .front = 12000 ∧
    (let p : Snapshot := { drive with displayed := ⟨.grip, .spin⟩ }
     p.displayed.get (Axle.front).other = .spin ∧ p.transferred .front = 0 ∧ p.excess .front = 12000) ∧
    (let p : Snapshot := { drive with inverter := ⟨.run, .fault⟩ }
     p.window .rear = ⟨0, 0⟩ ∧ p.excess .front = 12000) ∧
    (let p : Snapshot := { drive with stack := [{ entry 2 1#8 .axleCap 1 0 with noTransfer := true }] }
     p.excess .front = 23000) ∧
    (let p : Snapshot := { drive with drive := ⟨12000, 5000⟩ }
     p.image.transferFlag p.mode = true ∧ p.displayed.rear ≠ .spin ∧ p.window .rear ≠ ⟨0, 0⟩ ∧ p.excess .front = 12000 ∧
       p.transferred .front = 5000) ∧
    drive.excess .front = drive.transferred .front := by
  refine ⟨by decide +kernel, fun x => ?_, by decide +kernel⟩
  unfold WindowLaw
  cases x <;> decide +kernel

/-- Discharge above the limit of 0 and generation above it; no power; a limit of 10 000 that is not exceeded. -/
theorem witness_PowerFactorScalesToLimit :
    (let p : Snapshot := { drive with limits := ⟨0, 0, .fresh⟩ }
     1600 * (p.dischargeLimit : Int) = 0 ∧ 0 < p.power) ∧
    (let p : Snapshot := { drive with demand := { drive.demand with torque := -24000 }, limits := ⟨0, 0, .fresh⟩ }
     1600 * (p.chargeLimit : Int) = 0 ∧ p.power < 0) ∧
    { drive with demand := { drive.demand with torque := 0 } }.power = 0 ∧
    (let p : Snapshot := { drive with demand := { drive.demand with torque := 5000 } }
     p.power ≤ 1600 * (p.dischargeLimit : Int) ∧ -(1600 * (p.chargeLimit : Int)) ≤ p.power ∧ p.power ≠ 0) ∧
    (let p : Snapshot := { drive with limits := ⟨1, 1, .fresh⟩ }
     1600 * (p.dischargeLimit : Int) < p.power ∧ 0 < p.factor) ∧
    (let m : Image := ⟨writeCells [] (256 + 0x5E) [0#8, 100#8, 0#8, 50#8], Sectors.all false⟩
     (∀ f ∈ [(Freshness.fresh, 200, 20), (.stale, 100, 20), (.absent, 100, 50)],
       let p : Snapshot := { drive with image := m, limits := ⟨200, 20, f.1⟩ }
       p.dischargeLimit = f.2.1 ∧ p.chargeLimit = f.2.2)) := by decide +kernel

/-- The blank image's steps are 24 000 each; a slow one's are 100 up and 50 down. -/
def slow (prev : Int) (torque : Int) : Snapshot :=
  { drive with
    prev := ⟨prev, 0⟩, demand := { drive.demand with torque := torque },
    image := ⟨writeCells [] (256 + 0x14) [4#8, 0#8, 4#8, 0#8, 0#8, 0#8, 0#8, 100#8, 0#8, 50#8], Sectors.all false⟩ }

theorem witness_RateLimitFollowsSteps :
    (∀ pt ∈ [((0 : Int), (5000 : Int)), (100, 5000), (-100, 5000), (-5000, 100), (0, -5000), (100, -5000), (5000, 0), (100, 100)],
      let p := slow pt.1 pt.2
      p.scaled .front = pt.2 ∧ p.excess .front = 0 ∧ p.factor = 32768) ∧
    (slow 12000 24000).excess .front ≠ 0 ∧ 0 ≤ (slow 12000 24000).scaled .front ∧
    (slow 12000 24000).scaled .front ≤ 12000 := by decide +kernel

theorem drive_ranges : SnapshotRanges drive where
  torque := by decide
  held := by decide
  blend := by decide
  blend_count := by decide
  stack := fun e he => by cases he
  capability := fun x => by cases x <;> decide
  limits := by decide

theorem witness_PassResultsStayInRange :
    SnapshotRanges drive ∧ drive.compute.record.output ≠ ⟨0, 0⟩ ∧
    SnapshotRanges { drive with device := .standby } :=
  ⟨drive_ranges, by decide +kernel,
   { drive_ranges with }⟩

theorem witness_ShareFollowsCorrectionOrHold :
    (let p : Snapshot := { drive with stack := [total 500 0, { entry 2 1#8 .shareHold 1 0 with value := 512 },
       { entry 4 2#8 .shareHold 7 1 with value := 0 }] }
     p.stack.Pairwise (fun x y => x.level < y.level) ∧ { entry 2 1#8 .shareHold 1 0 with value := 512 } ∈ p.stack ∧
     ∀ e' ∈ p.stack, e'.kind = .shareHold → 1 ≤ e'.level) ∧
    (∀ e ∈ drive.stack, e.kind ≠ .shareHold) ∧ drive.reference.freshness ≠ .fresh ∧
    (let p : Snapshot := { drive with
       reference := ⟨⟨1000, 1000⟩, .fresh⟩, displayed := ⟨.slip, .grip⟩, filtered := ⟨32767, 0⟩,
       image := ⟨writeCells [] 768 [4#8, 0#8], Sectors.all false⟩ }
     p.reference.freshness = .fresh ∧ p.displayed.rear = .grip) ∧
    (let m : Image := ⟨writeCells [] 768 [4#8, 0#8] |> fun c => writeCells c (768 + 0x22) [0#8, 40#8], Sectors.all false⟩
     let p (d : SlipState) (f t : Int) : Snapshot := { drive with
       image := m, displayed := ⟨d, .grip⟩, filtered := ⟨f, 0⟩, demand := { drive.demand with torque := t } }
     (p .slip 40 0).slipExcess .front = 0 ∧ (p .slip (-41) (-1)).slipExcess .front = 1 ∧
       (p .spin 41 0).slipExcess .front = 2 ∧ (p .spin 32767 0).slipExcess .front = 32767) ∧
    (let m : Image := { blankImage with cells := [(256 + 0x16, 0#8)] }
     m.shareHigh .normal < m.shareLow .normal) ∧ blankImage.shareLow .normal ≤ blankImage.shareHigh .normal := by
  decide +kernel

/-! ## Witnesses: frames, slip, interventions -/

def withDemand (fr : DemandFreshness) (ref : Option Nat) (bad : Nat) (resynced : Bool) (s : State) : State :=
  { s with du := { s.du with
    demand := { s.du.demand with freshness := fr }, counterRef := ref, badRun := bad, resynced := resynced } }

theorem base_frames : FrameTaken base 1 .ds ∧ FrameTaken base 2 .sc ∧ FrameTaken base 3 .bm ∧ FrameTaken base 4 .tm ∧
    FrameTaken base 6 .st := by
  unfold FrameTaken; decide

/-- Each freshness with the counters that its clause names, from 15 to 0 as well; in STALE with the runs 0 and 2. -/
theorem witness_DemandFramesFollowCounter :
    FrameTaken base 1 .ds ∧
    (withDemand .absent none 0 false base).du.counterRef = none ∧
    (∀ d ∈ [(withDemand .stale (some 15) 0 false base), (withDemand .stale (some 15) 2 false base), (withDemand .fresh (some 15) 2 false base),
        (withDemand .lost (some 15) 0 true base)], FrameTaken d 1 .ds ∧ d.du.counterRef = some 15) ∧
    (0x10#8).toNat % 16 = (15 + 1) % 16 ∧ (0x0F#8).toNat % 16 = 15 ∧
    (0x01#8).toNat % 16 ≠ 15 ∧ (0x01#8).toNat % 16 ≠ (15 + 1) % 16 ∧
    (withDemand .fresh (some 15) 1 false base).du.badRun < 2 ∧ (withDemand .fresh (some 15) 2 false base).du.badRun = 2 ∧
    (withDemand .lost (some 15) 0 false base).du.resynced = false ∧
    (withDemand .stale (some 15) 2 false base).du.badRun = 2 ∧ (withDemand .stale (some 15) 0 false base).du.badRun ≠ 2 := by
  unfold FrameTaken; decide

/-- R22: a wrong counter in STALE with a run of 2 leaves the record STALE when it came with the 30 ms expiry; later it
resynchronises (section 2.1.1). -/
theorem test_third_wrong_counter :
    ((withDemand .stale (some 15) 2 false base).takeDemand 0#16 0#8 0#8 5 true).du.demand.freshness = .stale ∧
    ((withDemand .stale (some 15) 2 false base).takeDemand 0#16 0#8 0#8 5 false).du.demand.freshness = .fresh := by decide

def timersRunning (s : State) : State := { s with cp := { s.cp with timers := ⟨true, true, true, true, true⟩ } }

theorem witness_RecordTimersAndLimitFrames :
    FrameTaken base 4 .tm ∧ FrameTaken base 3 .bm ∧
    (∀ f ∈ [DemandFreshness.fresh, .stale],
      let s := timersRunning (withDemand f (some 0) 0 false base)
      s.cp.timers.demand30 = true ∧ s.cp.timers.demand130 = true ∧ s.du.demand.freshness = f) ∧
    (timersRunning base).cp.timers.load = true ∧ (timersRunning base).cp.timers.battery = true ∧
    base.cp.timers = ⟨false, false, false, false, false⟩ := by
  unfold FrameTaken; decide

def withReference (f : Freshness) (s : State) : State :=
  { s with se := { s.se with reference := { s.se.reference with freshness := f } } }

theorem witness_ReferenceRecordAndOverrides :
    FrameTaken base 2 .sc ∧ base.se.reference.freshness ≠ .fresh ∧
    (withReference .fresh base).se.reference.freshness = .fresh ∧ FrameTaken (withReference .fresh base) 2 .sc ∧
    (∀ a ∈ [1#8, 3#8], 1 ≤ a.toNat ∧ a.toNat ≤ 3) ∧ (4 ≤ (4#8).toNat) ∧
    (timersRunning base).cp.timers.reference = true ∧ base.cp.timers.reference = false := by
  unfold FrameTaken; decide

/-- Coefficients of −1/32 768 in the blank image's 16 taps, and of 32 767 in another's. -/
theorem witness_FilterRoundsAndSaturates :
    SlipAxle.reset.taps.length = 16 ∧ (∀ r ∈ List.replicate 16 (32767 : Int), -32767 ≤ r ∧ r ≤ 32767) ∧
    (SlipAxle.reset.filter blankImage .front (-32767)).saturated = false ∧
    (let m : Image := ⟨[(768 + 2, 0x7F#8), (768 + 4, 0x7F#8)], Sectors.all false⟩
     let up : SlipAxle := { SlipAxle.reset with taps := List.replicate 16 32767 }
     let down : SlipAxle := { SlipAxle.reset with taps := List.replicate 16 (-32767) }
     (up.filter m .front 32767).saturated = true ∧ (down.filter m .front (-32767)).saturated = true) := by decide +kernel

/-- Each clause's automatic state at its threshold and one away from it: entry 40, spin 240, exit 10. -/
theorem witness_SlipStatesFollowThresholds :
    ((10 : Int) ≤ 40 ∧ (40 : Int) ≤ 240) ∧
    (let a := { SlipAxle.reset with enterCount := 3 }
     a.auto = .grip ∧ a.enterCount = 3 ∧ a.classify 41 40 240 10 ≠ a.classify 40 40 240 10) ∧
    (let a := { SlipAxle.reset with auto := .slip, exitCount := 7 }
     a.auto = .slip ∧ a.exitCount = 7 ∧ a.classify 9 40 240 10 ≠ a.classify 10 40 240 10 ∧
       a.classify 241 40 240 10 ≠ a.classify 240 40 240 10) ∧
    (let a := { SlipAxle.reset with auto := .spin }
     a.auto = .spin ∧ a.classify 40 40 240 10 ≠ a.classify 41 40 240 10) ∧
    blankImage.hysteresis .front ≤ enterThreshold blankImage .front 0 ∧
    (let m : Image := ⟨[(768 + 0x22, 0#8), (768 + 0x23, 40#8)], Sectors.all false⟩
     enterThreshold m .front 0 = 40 ∧ enterThreshold m .front 0 < m.hysteresis .front) := by decide +kernel

/-- Source 2 is bound to SC, source 4 to TM; each with its bounds in order and the wrong way round. -/
theorem witness_InterventionLevelsAndRefusals :
    (base.chassis = some config ∧ config.table[(2 : Source).val]? = some ⟨.sc, 0, 5⟩ ∧ base.bound 2 .sc = true ∧
      config.table[(4 : Source).val]? = some ⟨.tm, 7, 4⟩ ∧ base.bound 4 .tm = true ∧ base.bound 2 .tm = false) ∧
    (let s := { base with chassis := some configSc, cp := { base.cp with binding := some configSc.binding } }
     s.bound 2 .sc = true ∧ s.bound 2 .tm = false ∧ configSc.table[(2 : Source).val]? = some ⟨.sc, 6, 5⟩) ∧
    (∀ d ∈ [DeviceState.service, .safeHold, .standby, .active],
      FrameTaken (inDevice d base) 2 .sc ∧ FrameTaken (inDevice d base) 4 .tm) ∧
    5 ≤ (5#8).toNat := by
  unfold FrameTaken; decide

/-- A stack with the levels 2, 3, 4 and 5 from source 1, and a Pending List of five at level 5 and one last. -/
def fourUp : List Entry :=
  [entry 1 2#8 .axleCap 2 0, entry 1 3#8 .totalCap 3 1, entry 1 4#8 .regenCut 4 2, entry 1 5#8 .shareHold 5 3]

def sixWaiting (last : Nat) : List Entry :=
  [entry 1 6#8 .axleCap 5 4, entry 1 7#8 .axleCap 5 5, entry 1 8#8 .axleCap 5 6, entry 1 9#8 .axleCap 5 7,
   entry 1 10#8 .axleCap 5 8, entry 1 11#8 .axleCap last 9]

theorem listLaws_of (stack waiting : List Entry)
    (h : (stack.length ≤ 4 ∧ waiting.length ≤ 6 ∧ stack.Pairwise (fun x y => x.level < y.level) ∧
      waiting.Pairwise (fun x y => x.level < y.level ∨ (x.level = y.level ∧ x.order < y.order))) ∧
      (∀ e ∈ waiting, ∃ top ∈ stack, stack.head? = some top ∧ top.level ≤ e.level) ∧
      (stack ++ waiting).Pairwise (fun x y => ¬(x.source = y.source ∧ x.tag = y.tag)) ∧
      (stack ++ waiting).Pairwise (fun x y => x.order ≠ y.order) ∧ ∀ e ∈ stack ++ waiting, e.order < 20) :
    ListLaws (withLists stack waiting base).ia where
  stack_capacity := h.1.1
  waiting_capacity := h.1.2.1
  stack_levels := h.1.2.2.1
  waiting_order := h.1.2.2.2
  top_best e he := (h.2.1 e he).elim fun top ht => ⟨top, ht.2.1, ht.2.2⟩
  identities := h.2.2.1
  orders_differ := h.2.2.2.1
  orders_past := h.2.2.2.2

/-- STANDBY with these lists and these answers waiting. -/
def arbiting (stack waiting : List Entry) (queued : List Answer) : State :=
  { withLists stack waiting base with cp := { base.cp with answers := queued } }

/-- The IA takes the frames of source 2 with these lists, whatever the answer queue holds: empty, or full with eight. -/
def reached (stack waiting : List Entry) : Prop :=
  ∀ queued, InterventionTaken (arbiting stack waiting queued) 2 ∧ ListLaws (arbiting stack waiting queued).ia

theorem reaches (stack waiting : List Entry) (h : ListLaws (withLists stack waiting base).ia) : reached stack waiting :=
  fun _ => ⟨⟨.inl ⟨rfl, fun h => (nomatch (h : DeviceState.standby = .init)), rfl⟩, .inl rfl⟩, h⟩

def taken (stack waiting : List Entry) (fields : InterventionFields) : Prop :=
  reached stack waiting ∧ NotHeld (withLists stack waiting base) 2 fields.tag

theorem taken_of (stack waiting : List Entry) (f : InterventionFields) (h : ListLaws (withLists stack waiting base).ia)
    (n : ∀ e ∈ stack ++ waiting, ¬(e.source = 2 ∧ e.tag = f.tag)) : taken stack waiting f :=
  ⟨reaches stack waiting h, n⟩

def fieldsAt (level : Byte) : InterventionFields := { fields with level := level }

/-- On an empty stack, and on one of three entries with the request one level better. -/
theorem witness_BetterRequestIsPushed :
    taken [] [] fields ∧ taken fourUp.dropLast [] (fieldsAt 1#8) ∧
    base.levelOf 2 (fieldsAt 1#8) = 1 ∧ fourUp.dropLast.length = 3 :=
  ⟨taken_of _ _ _ (listLaws_of _ _ (by decide)) (by decide), taken_of _ _ _ (listLaws_of _ _ (by decide)) (by decide),
   by decide⟩

/-- Five waiting; six waiting with the bottom, of level 5, better than the last; and six waiting with it no better. -/
theorem witness_FullStackDisplacesBottom :
    (∀ w ∈ [(sixWaiting 6).dropLast, sixWaiting 6, sixWaiting 5], taken fourUp w (fieldsAt 1#8)) ∧
    fourUp.length = 4 ∧ fourUp.getLast? = some (entry 1 5#8 .shareHold 5 3) ∧ base.levelOf 2 (fieldsAt 1#8) = 1 := by
  refine ⟨fun w hw => taken_of _ _ _ (listLaws_of _ _ ?_) ?_, by decide⟩ <;> revert w <;> decide

/-- Five waiting; six waiting with the request, of level 2 as the top, better than the last; six waiting with the request, of
level 5, no better than the last. -/
theorem witness_WorseRequestWaitsOrIsRefused :
    taken fourUp (sixWaiting 6).dropLast (fieldsAt 2#8) ∧ taken fourUp (sixWaiting 6) (fieldsAt 2#8) ∧
    taken fourUp (sixWaiting 5) (fieldsAt 5#8) ∧ base.levelOf 2 (fieldsAt 2#8) = 2 ∧ base.levelOf 2 (fieldsAt 5#8) = 5 :=
  ⟨taken_of _ _ _ (listLaws_of _ _ (by decide)) (by decide), taken_of _ _ _ (listLaws_of _ _ (by decide)) (by decide),
   taken_of _ _ _ (listLaws_of _ _ (by decide)) (by decide), by decide⟩

/-- The stack entry and the pending entry of source 2 with the request's tag. -/
def mine (level order : Nat) : Entry := entry 2 0x0B#8 .totalCap level order

theorem witness_RefreshUpdatesEntryInPlace :
    reached [mine 2 0] [] ∧ reached fourUp [mine 2 4] ∧ (mine 2 0).source = 2 ∧ (mine 2 0).tag = fields.tag ∧
    (mine 2 0).level = base.levelOf 2 fields :=
  ⟨reaches _ _ (listLaws_of _ _ (by decide)), reaches _ _ (listLaws_of _ _ (by decide)), by decide⟩

/-- Another kind at the same level, and the same kind at another level. -/
theorem witness_ReplacementIsRemovalAndNewRequest :
    reached [mine 2 0] [] ∧ reached fourUp [mine 3 4] ∧ (mine 2 0).kind ≠ .axleCap ∧
    (mine 3 4).level ≠ base.levelOf 2 fields :=
  ⟨reaches _ _ (listLaws_of _ _ (by decide)), reaches _ _ (listLaws_of _ _ (by decide)), by decide, by decide⟩

def updatedAnswer (n : Nat) : Answer := ⟨4, BitVec.ofNat 8 n, .updated, 5, .stack⟩

/-- Section 8.5.1, at 40 ms: the EXPIRED answer to an entry stands at the end of a full queue, whose oldest is discarded. -/
theorem test_expiry_with_full_answer_queue :
    ((arbiting [mine 2 0] [] ((List.range 8).map updatedAnswer)).arbitrate
      ((arbiting [mine 2 0] [] []).ia.expire 2 0x0B#8)).cp.answers =
      (List.range 7).map (fun n => updatedAnswer (n + 1)) ++ [⟨2, 0x0B#8, .expired, 2, .none⟩] := by decide

/-- A pending entry; a top with nothing waiting; a top with an entry waiting that is better than the next, or is not, or
finds the stack empty; and an identity not held. -/
theorem witness_RemovalAdmitsFirstPending :
    reached [entry 1 2#8 .axleCap 2 0] [mine 3 4] ∧ reached [mine 2 0] [] ∧
    reached [mine 2 0, entry 1 3#8 .axleCap 4 1] [entry 1 4#8 .axleCap 3 2] ∧
    reached [mine 2 0, entry 1 3#8 .axleCap 4 1] [entry 1 4#8 .axleCap 4 2] ∧
    reached [mine 2 0] [entry 1 4#8 .axleCap 2 2] ∧ NotHeld (withLists fourUp (sixWaiting 5) base) 2 0x0B#8 :=
  ⟨reaches _ _ (listLaws_of _ _ (by decide)), reaches _ _ (listLaws_of _ _ (by decide)),
   reaches _ _ (listLaws_of _ _ (by decide)), reaches _ _ (listLaws_of _ _ (by decide)),
   reaches _ _ (listLaws_of _ _ (by decide)), by unfold NotHeld; decide⟩

theorem witness_AnswerQueueKeepsNewestEight :
    (let eight := List.replicate 8 (answerTo (mine 2 0) .accepted .stack)
     eight.length ≤ 8 ∧ (sending .answer 0 { base with cp := { base.cp with answers := eight } }).cp.answers = eight ∧
     (sending .answer 0 base).cp.transmission = some ⟨.answer, 0x660, [0#8]⟩) ∧
    (∀ t ∈ (sending .slotA 0 base).cp.transmission, t.origin ≠ .answer) := by decide

/-! ## Witnesses: links -/

/-- The report frame with a given byte 0 and every other field 0, its check value right. -/
def report (b0 : Byte) : List Byte := [b0, 0#8, 0#8, 0#8, 0#8, 0#8, 0#8] ++ [crc8 [b0, 0#8, 0#8, 0#8, 0#8, 0#8, 0#8]]

def waitingAt (k : Nat) (loop : LoopState) (ack : Bool) (l : Link) : Link :=
  { l with slot := .waiting, position := k, loop := loop, ackVerified := ack, sentFrame := [0#8, 0#8, 0#8, 0#8] }

/-- At the frame numbers 0 and 7, and with the far-error flag. -/
theorem witness_GoodReportIsHandedOn :
    (∀ k ∈ [0, 7], (withFront (waitingAt k .opened false) base).links.front.slot = .waiting ∧
      (withFront (waitingAt k .opened false) base).links.front.loop = .opened) ∧
    GoodReport (waitingAt 0 .opened false linkUp) (report 0x10#8) ∧
    GoodReport (waitingAt 7 .opened false linkUp) (report 0x07#8) := by
  unfold GoodReport; decide +kernel

/-- A far loopback before acknowledge is verified and after it, with the echo of the torque field 0 and without it. -/
theorem witness_LoopedLinksTakeNoReportData :
    GoodReport (waitingAt 6 .far true linkUp) (report 0x06#8) ∧ GoodReport (waitingAt 7 .far false linkUp) (report 0x07#8) ∧
    (let l := waitingAt 6 .far true linkUp
     l.slot = .waiting ∧ l.loop = .far ∧ l.ackVerified = true ∧
     (report 0x06#8).getD 3 0#8 = l.sentFrame.getD 1 0#8 ∧ (report 0x06#8).getD 4 0#8 = l.sentFrame.getD 2 0#8) ∧
    ({ waitingAt 6 .far true linkUp with sentFrame := [0#8, 0#8, 1#8, 0#8] }.sentFrame.getD 2 0#8 ≠
      (report 0x06#8).getD 4 0#8) ∧
    (waitingAt 6 .nearOpaque true linkUp).loop = .nearOpaque := by
  unfold GoodReport; decide +kernel

/-- A wrong frame number, a wrong check value; a slot of each phase; a loss of the link at the eighth bad result. -/
theorem witness_MissingAndBadReportsCountBad :
    ¬GoodReport (waitingAt 1 .opened false linkUp) (report 0x00#8) ∧
    ¬GoodReport (waitingAt 0 .opened false linkUp) ((report 0x00#8).take 7 ++ [1#8]) ∧ (report 0x00#8).length = 8 ∧
    (withFront (waitingAt 7 .opened false) base).links.front.slot = .waiting ∧ base.links.front.slot = .settled ∧
    (let l : Link := { waitingAt 7 .opened false linkUp with slot := .noResult, complete := false }
     l.slot = .noResult ∧ l.complete = false) ∧
    (badSlot { linkUp with state := .impaired, badRun := 7 }).state = .lost ∧
    (badSlot { linkUp with state := .impaired, badRun := 6 }).state = .impaired := by
  unfold GoodReport; decide +kernel

/-- The second complete superframe with the word FAULT, one with another word before it, and an incomplete one; in OPEN and
in FAR. -/
theorem witness_CompleteSuperframesVerifyWord :
    (∀ loop ∈ [LoopState.opened, .far], ∀ prev ∈ [some 4#8, some 0#8],
      let l := { waitingAt 7 loop false linkUp with received := 4#8, complete := true, prevWord := prev }
      GoodReport l (report 0x07#8) ∧ l.slot = .waiting ∧ l.position = 7 ∧ l.complete = true) ∧
    (waitingAt 7 .opened false linkUp).complete = false := by
  unfold GoodReport; decide +kernel

theorem witness_CompleteSuperframesVerifyWord_completes :
    ∃ t, exec (.reportFrame .front (report 0x07#8)) (withFront (waitingAt 7 .opened false) base) = .next t := ⟨_, rfl⟩

theorem witness_SlotOpeningSendsCommandFrames :
    (∀ x, (base.links.get x).loop = .opened ∨ (base.links.get x).loop = .far) ∧
    (∀ x, (base.links.get x).slot = .settled) ∧
    (let s := withFront (waitingAt 7 .far false) (inDevice .service base)
     (∀ x, (s.links.get x).loop = .opened ∨ (s.links.get x).loop = .far) ∧ (∀ x, (s.links.get x).slot ≠ .none) ∧
     ∃ t u, exec (.slotEnd .front) s = .next t ∧ exec (.slotEnd .rear) t = .next u) := by
  refine ⟨fun x => ?_, fun x => ?_, fun x => ?_, fun x => ?_, _, _, rfl, rfl⟩ <;> cases x <;> decide

/-- Both axles in each near loopback; an error of each kind: the torque field, the frame number, the check value alone. -/
theorem witness_NearLoopbackTakesOwnFrame :
    (∀ loop ∈ [LoopState.nearTransparent, .nearOpaque],
      let near (l : Link) : Link := { l with loop := loop, position := 6 }
      let s := { withFront near (inDevice .service base) with links := ⟨near linkUp, near linkUp⟩ }
      s.links.front.loop = loop ∧ s.links.rear.loop = loop ∧ s.links.front.slot = .settled ∧ s.links.rear.slot = .settled) ∧
    (0x00000100#32).extractLsb' 8 16 ≠ 0#16 ∧ (0x01000000#32).extractLsb' 24 3 ≠ 0#3 ∧
    0x000000FF#32 ≠ 0#32 ∧ (0x000000FF#32).toNat < 256 := by decide

/-- R131: an error of the check value alone makes the slot of a near loopback a bad result. -/
theorem test_near_check_value :
    let s := withFront (fun l => { l with loop := .nearTransparent }) (inDevice .service base)
    ((s.nextSlot .front 0#32).links.front.goodRun, (s.nextSlot .front 0x00000001#32).links.front.badRun) = (5, 1) := by
  decide +kernel

/-- The SU begins a request with these parameters in a device state. -/
def begun (d : DeviceState) (code : Byte) (params : List Byte) : State :=
  withQueue (request code params) none (inDevice d base)

theorem begun_begins (d : DeviceState) (code : Byte) (params : List Byte) (h : d ≠ .init) :
    Begins (begun d code params) code (request code params) :=
  ⟨rfl, rfl, rfl, Nat.zero_lt_succ 3, rfl, h⟩

theorem witness_LoopbackAndCounterServices :
    (∀ d ∈ [DeviceState.service, .standby], Begins (begun d 0x21#8 [1#8, 3#8]) 0x21#8 (request 0x21#8 [1#8, 3#8])) ∧
    Begins (begun .service 0x21#8 [2#8, 4#8]) 0x21#8 (request 0x21#8 [2#8, 4#8]) ∧
    Begins (begun .service 0x21#8 [3#8, 0#8]) 0x21#8 (request 0x21#8 [3#8, 0#8]) ∧
    Begins (begun .active 0x20#8 [2#8]) 0x20#8 (request 0x20#8 [2#8]) ∧
    Begins (begun .active 0x20#8 [3#8]) 0x20#8 (request 0x20#8 [3#8]) :=
  ⟨fun d hd => begun_begins d _ _ (by rintro rfl; revert hd; decide), begun_begins _ _ _ (by decide),
   begun_begins _ _ _ (by decide), begun_begins _ _ _ (by decide), begun_begins _ _ _ (by decide)⟩

/-! ## Witnesses: chassis port and events -/

/-- DEMAND from a source that is not DS; a frame of each end of the block and beyond it; a DEMAND frame that passes, one
too short, and one of a kind that the TQ620 does not receive. -/
theorem witness_PortChecksRejectFrames :
    decodeFrame 0 2 [0#8, 0#8, 0#8, 0#8, 0#8] = some (.demand 2 0#16 0#8 0#8 ⟨0#8, false⟩) ∧ base.cp.state = .on ∧
    (∀ r ∈ [Role.ds], base.bound 2 r = false) ∧ State.reset.osc.device = .init ∧ State.reset.chassis = none ∧
    { base.cp with state := PortState.silent }.state = .silent ∧
    (∀ f ∈ [(⟨0x600, false, false, 0, []⟩ : CanFrame), ⟨0x67F, false, false, 8, List.replicate 8 0#8⟩,
        ⟨0x5FF, false, false, 0, []⟩, ⟨0x680, false, false, 0, []⟩, ⟨0x601, true, false, 0, []⟩,
        ⟨0x601, false, true, 5, []⟩, ⟨0x601, false, false, 5, List.replicate 5 0#8⟩,
        ⟨0x601, false, false, 4, List.replicate 4 0#8⟩, ⟨0x63E, false, false, 15, List.replicate 8 0#8⟩],
      f.wellFormed = true) ∧ base.chassis = some config ∧
    (∃ row ∈ kindTable[0]?, (∃ r ∈ row.1, base.bound 1 r = true) ∧ min 5 8 = row.2) ∧
    (∃ row ∈ kindTable[7]?, (∃ r ∈ row.1, base.bound 6 r = true) ∧ min 15 8 = row.2) := by
  refine ⟨by decide, by decide, by decide, by decide, rfl, by decide, by decide, rfl, ⟨([.ds], 5), rfl, ?_⟩,
    ⟨([.st], 8), rfl, ?_⟩⟩ <;> decide

theorem witness_EventControlSetsMaskAndClears :
    FrameTaken base 1 .ds ∧ (0#8 : Byte) ≠ 1#8 ∧ (0#8 : Byte) ≠ 2#8 ∧ base.eu.events = 0x0001#16 := by
  unfold FrameTaken; decide

theorem witness_StatusFramesShowState :
    (let s := withLists fourUp (sixWaiting 6) base
     s.cp.statusTimer = true ∧ s.ia.stack.length ≤ 4 ∧ (s.ia.stack.head?.map (·.level)).getD 8 = 2 ∧ s.ia.waiting.length ≤ 6) ∧
    (base.ia.stack.head?.map (·.level)).getD 8 ≤ 8 ∧
    (sending .slotB 0 base).cp.transmission.map (·.origin) = some .slotB := by decide

def withSlotC (s : State) : State := { s with cp := { s.cp with slotC := ⟨some [0#8], none⟩ } }

theorem witness_LowestCandidateIsOffered :
    base.chassis = some config ∧ base.osc.device ≠ .init ∧ base.cp.state = .on ∧ base.cp.transmission = none ∧
    Candidate (withSlotC base) config ⟨.slotC, 0x657, [0#8]⟩ ∧
    Candidate (arbiting [] [] [answerTo (mine 2 0) .refusedFull .none]) config ⟨.answer, 0x65A, [0x0B#8, 0x10#8, 2#8, 0#8]⟩ ∧
    (∀ u, ¬Candidate base config u) ∧ (sending .slotC 0 base).cp.transmission.isSome = true := by
  refine ⟨rfl, by decide, rfl, rfl, .inr (.inr (.inl ⟨rfl, rfl, rfl⟩)),
    .inr (.inr (.inr (.inl ⟨_, rfl, rfl, rfl, rfl⟩))), fun u h => ?_, rfl⟩
  rcases h with ⟨_, h, _⟩ | ⟨_, h, _⟩ | ⟨_, h, _⟩ | ⟨_, h, _⟩ | ⟨_, h, _⟩ <;> cases h

/-- A status frame, an answer; the transmit error count at 247 and 248; the port SILENT. -/
theorem witness_TransmissionEndsBySuccessOrFailure :
    (∀ o ∈ [TxOrigin.slotA, .slotB, .slotC, .answer],
      (sending o 247 base).cp.transmission = some ⟨o, 0x660, [0#8]⟩ ∧ o ≠ .response) ∧
    (sending .slotA 247 base).cp.errorCount + 8 ≤ 255 ∧ 255 < (sending .slotA 248 base).cp.errorCount + 8 ∧
    { base.cp with state := PortState.silent }.state = .silent := by decide

/-! ## Witnesses: services -/

theorem witness_ServiceRequestQueuesOrBusy :
    FrameTaken base 6 .st ∧ [0#8, 0#8, 0#8, 0#8, 0#8, 0#8, 0#8].length = 7 ∧
    (let r := request 0x23#8 []
     let full : State := { base with su := { ServiceUnit.reset with queue := [r, r, r, r] } }
     let a : Response := ⟨6, 0x23#8, .done, noPayload⟩
     full.su.queue.length = 4 ∧ full.su.responses.length + 0 < 4 ∧
     (let t : State := { full with su := { full.su with responses := [a, a, a], operation := some .lock } }
      t.su.operation ≠ none ∧ 4 ≤ t.su.responses.length + 1)) := by
  unfold FrameTaken; decide

theorem witness_EnterServiceClearsTorqueAndLists :
    ∀ d ∈ [DeviceState.standby, .safeHold, .active, .service], Begins (begun d 0x01#8 []) 0x01#8 (request 0x01#8 []) :=
  fun d hd => begun_begins d _ _ (by rintro rfl; revert hd; decide)

theorem witness_LeaveServiceAdoptsImage :
    (∀ d ∈ [DeviceState.standby, .safeHold, .active, .service], Begins (begun d 0x02#8 []) 0x02#8 (request 0x02#8 [])) ∧
    (withQueue (request 0x02#8 []) (some .imageCheck) base).su.operation = some .imageCheck ∧
    (withQueue (request 0x02#8 []) (some .imageCheck) base).su.queue.head? = some (request 0x02#8 []) :=
  ⟨fun d hd => begun_begins d _ _ (by rintro rfl; revert hd; decide), rfl, rfl⟩

theorem witness_IdentityRestartAndUnknownService :
    0x00#8 ∉ listedCodes ∧ Begins (begun .active 0x00#8 []) 0x00#8 (request 0x00#8 []) ∧
    base.image = some blankImage ∧ Begins (begun .active 0x23#8 []) 0x23#8 (request 0x23#8 []) ∧
    Begins (begun .active 0x30#8 []) 0x30#8 (request 0x30#8 []) :=
  ⟨by decide, begun_begins _ _ _ (by decide), rfl, begun_begins _ _ _ (by decide), begun_begins _ _ _ (by decide)⟩

theorem entry_ranges : EntryRanges (mine 2 0) := by unfold EntryRanges; decide

/-- The stack with index 3 and 4 and the Pending List with index 5 and 6; an entry and none; list 2. -/
theorem witness_ArbiterEntryIsRead :
    (∀ p ∈ [[0#8, 3#8], [0#8, 4#8], [1#8, 5#8], [1#8, 6#8], [2#8, 0#8], [0#8, 0#8], [1#8, 0#8]],
      let s := withLists [mine 2 0] [mine 2 4] (begun .active 0x22#8 p)
      Begins s 0x22#8 (request 0x22#8 p)) ∧
    [mine 2 0][0]? = some (mine 2 0) ∧ [mine 2 0][3]? = none ∧ EntryRanges (mine 2 0) :=
  ⟨fun _ _ => ⟨rfl, rfl, rfl, Nat.zero_lt_succ 3, rfl, fun h => nomatch (h : DeviceState.active = .init)⟩, rfl, rfl, entry_ranges⟩

/-- Sectors 0, 3 and 4; counts 0, 1, 4 and 5; offset and count together 256 and 257; a DAMAGED sector. -/
theorem witness_CalibrationBytesAreRead :
    (∀ p ∈ [[0x01#8, 0#8], [0x34#8, 252#8], [0x34#8, 253#8], [0x30#8, 0#8], [0x05#8, 0#8], [0x41#8, 0#8]],
      Begins (begun .safeHold 0x10#8 p) 0x10#8 (request 0x10#8 p)) ∧
    (0x34#8).toNat / 16 ≤ 3 ∧ 1 ≤ (0x34#8).toNat % 16 ∧ (0x34#8).toNat % 16 ≤ 4 ∧ (252#8).toNat + 4 ≤ 256 ∧
    ¬(253#8).toNat + 4 ≤ 256 ∧ base.store.sectors.get 3 ≠ .damaged ∧ (base.store.damage 3).sectors.get 3 = .damaged :=
  ⟨fun p _ => begun_begins _ _ _ (by decide), by decide⟩

/-- The same boundaries; locked, DAMAGED, with a byte already programmed, and blank. -/
theorem witness_WriteChecksInOrder :
    (∀ d ∈ [DeviceState.service, .standby], ∀ p ∈ [[0x34#8, 252#8], [0x34#8, 253#8], [0x41#8, 0#8]],
      Begins (begun d 0x11#8 p) 0x11#8 (request 0x11#8 p)) ∧
    base.store.locked = false ∧ { base.store with locked := true }.locked = true ∧
    (base.store.damage 3).sectors.get 3 = .damaged ∧
    (∀ k < 4, readCell base.store.cells (256 * 3 + 252 + k) = 0xFF#8) ∧
    readCell (base.store.endWrite 3 255 [0#8]).cells (256 * 3 + 252 + 3) ≠ 0xFF#8 :=
  ⟨fun d hd p _ => begun_begins _ _ _ (by rintro rfl; revert hd; decide), by decide⟩

theorem storeLaws_of (op : Option Operation) (h : OperationLaw base.store op) :
    StoreLaws (withQueue (request 0x11#8 []) op (inDevice .service base)) where
  canonical := rfl
  blank := fun _ _ _ c hc => by cases hc
  operation := h

theorem witness_WriteStoresItsBytes :
    (let s := withQueue (request 0x11#8 []) (some (.write 3 252 [1#8, 0xFF#8, 2#8, 3#8])) (inDevice .service base)
     s.su.operation = some (.write 3 252 [1#8, 0xFF#8, 2#8, 3#8]) ∧ s.su.queue.head? = some (request 0x11#8 [])) ∧
    StoreLaws (withQueue (request 0x11#8 []) (some (.write 3 252 [1#8, 0xFF#8, 2#8, 3#8])) (inDevice .service base)) :=
  ⟨⟨rfl, rfl⟩, storeLaws_of _ (by unfold OperationLaw; decide)⟩

theorem witness_EraseEndsErasedOrDamaged :
    (∀ d ∈ [DeviceState.service, .standby], ∀ p ∈ [[0x30#8], [0x40#8]],
      Begins (begun d 0x12#8 p) 0x12#8 (request 0x12#8 p)) ∧
    base.store.locked = false ∧ { base.store with locked := true }.locked = true ∧
    (withQueue (request 0x12#8 []) (some (.erase 3)) base).su.operation = some (.erase 3) ∧
    (withQueue (request 0x12#8 []) (some (.erase 3)) base).su.queue.head? = some (request 0x12#8 []) :=
  ⟨fun d hd p _ => begun_begins _ _ _ (by rintro rfl; revert hd; decide), by decide⟩

theorem witness_BulkEraseAndLock :
    (∀ d ∈ [DeviceState.service, .standby], Begins (begun d 0x13#8 []) 0x13#8 (request 0x13#8 []) ∧
      Begins (begun d 0x14#8 []) 0x14#8 (request 0x14#8 [])) ∧
    (∀ op ∈ [Operation.bulkErase, .lock], (withQueue (request 0x13#8 []) (some op) base).su.operation = some op ∧
      (withQueue (request 0x13#8 []) (some op) base).su.queue.head? = some (request 0x13#8 [])) :=
  ⟨fun d hd => ⟨begun_begins _ _ _ (by rintro rfl; revert hd; decide), begun_begins _ _ _ (by rintro rfl; revert hd; decide)⟩,
   by decide⟩

/-! ## Witnesses: invariants -/

/-- A state in ACTIVE with full lists, a pass in progress, a command waiting and a locked store. -/
def busy : State :=
  { withPass drive (withLists fourUp (sixWaiting 6) (inDevice .active base)) with
    store := { base.store with locked := true }, pending := [.passCompletion] }

theorem witness_StepKeepsAttentionCapacitiesAndSlots : AttentionLaw busy ∧ CapacityLaws busy ∧ SlotsTogether busy :=
  ⟨by unfold AttentionLaw; decide,
   { answers := by decide, requests := by decide, responses := by decide, executing := by decide,
     transmitErrors := by decide, runs := fun x => by cases x <;> decide, errors := fun x => by cases x <;> decide },
   by unfold SlotsTogether; decide⟩

theorem witness_StepKeepsListLaws : ListLaws busy.ia := listLaws_of fourUp (sixWaiting 6) (by decide)

theorem witness_StepKeepsStoreAndLock : StoreLaws busy ∧ busy.store.locked = true :=
  ⟨{ canonical := rfl, blank := fun _ _ _ _ hc => (nomatch hc), operation := trivial }, rfl⟩

theorem witness_StepKeepsDeviceLawsAndNoTorque : DeviceLaws busy ∧ NoTorqueOutsideActive busy :=
  ⟨{ held := by decide, checking := by decide, links_off := fun x => by cases x <;> decide,
     slots := fun x => by cases x <;> decide, loops := fun x => by cases x <;> decide, pass_timer := by decide,
     pass := fun p hp => by cases hp; exact ⟨rfl, rfl, rfl⟩, leaving := by decide, lists := by decide },
   fun h => absurd rfl h⟩

theorem witness_StepKeepsRanges : RangeLaws busy where
  snapshot :=
    { torque := by decide, held := by decide, blend := by decide, blend_count := by decide,
      stack := fun e he => by revert e; unfold EntryRanges; decide,
      capability := fun x => by cases x <;> decide, limits := by decide }
  waiting := fun e he => by revert e; unfold EntryRanges; decide
  previous := fun x => by cases x <;> decide
  record :=
    { output := fun x => by cases x <;> decide, share := by decide, accepted := by decide, unserved := by decide,
      factor := by decide, discharge := by decide }
  pass := fun p hp => by cases hp; exact ⟨drive_ranges, rfl, rfl⟩
  slip := fun x => by cases x <;> decide
  speeds := fun x => by cases x <;> decide
  load := by decide
  outputs := fun x => by cases x <;> decide
  factor := by decide
  shortfall := by decide
  counter := by decide
  pending_mode := by decide
  overrides := fun _ x => by cases x <;> rfl

theorem witness_steps_answer : ∃ t, step busy = .next t := ⟨_, rfl⟩

end Sys2Proof.Tests
end

section
/-! The effective windows of chapter 5: what each construction step of R88 to R91 gives, and O14. -/

namespace Sys2Proof.Machine

/-! ## The entries that R79 applies to an axle -/

/-- A value of a list below every other is its smallest. -/
theorem smallest_eq_some_of_mem {l : List Nat} {m : Nat} (hm : m ∈ l) (hle : ∀ x ∈ l, m ≤ x) : smallest l = some m := by
  cases hs : smallest l with
  | none =>
    rw [smallest_eq_none] at hs
    simp [hs] at hm
  | some y =>
    obtain ⟨hy, hyle⟩ := smallest_eq_some hs
    rw [le_antisymm (hyle m hm) (hle y hy)]

theorem mem_axleCapsOf {stack : List Entry} {x : Axle} {e : Entry} :
    e ∈ axleCapsOf stack x ↔ e ∈ stack ∧ e.kind = .axleCap ∧ e.axle.names x = true := by
  simp [axleCapsOf]

theorem axleCapOf_eq_none {stack : List Entry} {x : Axle}
    (h : ∀ e ∈ stack, ¬(e.kind = .axleCap ∧ e.axle.names x = true)) : axleCapOf stack x = none := by
  rw [axleCapOf, smallest_eq_none, List.map_eq_nil_iff, List.eq_nil_iff_forall_not_mem]
  intro e he
  obtain ⟨hmem, hcap⟩ := mem_axleCapsOf.1 he
  exact h e hmem hcap

theorem axleCapOf_eq_some {stack : List Entry} {x : Axle} {e : Entry} (he : e ∈ stack)
    (hcap : e.kind = .axleCap ∧ e.axle.names x = true)
    (hle : ∀ e' ∈ stack, e'.kind = .axleCap ∧ e'.axle.names x = true → e.value ≤ e'.value) :
    axleCapOf stack x = some e.value := by
  refine smallest_eq_some_of_mem (List.mem_map_of_mem (mem_axleCapsOf.2 ⟨he, hcap⟩)) fun v hv => ?_
  obtain ⟨e', he', rfl⟩ := List.mem_map.1 hv
  obtain ⟨hmem, hcap'⟩ := mem_axleCapsOf.1 he'
  exact hle e' hmem hcap'

theorem regenCutOf_iff {stack : List Entry} {x : Axle} :
    regenCutOf stack x = true ↔ ∃ e ∈ stack, e.kind = .regenCut ∧ e.axle.names x = true := by
  simp [regenCutOf]

/-! ## The construction steps of a window -/

theorem Snapshot.windowStands_iff (p : Snapshot) (x : Axle) :
    p.windowStands x = true ↔ p.device = .active ∧ (p.link.get x = .up ∨ p.link.get x = .impaired) ∧
      (p.inverter.get x = .run ∨ p.inverter.get x = .derate) := by
  simp [Snapshot.windowStands, and_assoc]

/-- Each condition that R89 names closes the window. -/
theorem Snapshot.windowStands_eq_false {p : Snapshot} {x : Axle}
    (h : p.device ≠ .active ∨ p.link.get x = .acquire ∨ p.link.get x = .lost ∨ p.inverter.get x = .off ∨
      p.inverter.get x = .ready ∨ p.inverter.get x = .fault) : p.windowStands x = false := by
  rw [Bool.eq_false_iff, Ne, p.windowStands_iff]
  rintro ⟨hdev, hlink, hinv⟩
  rcases h with h | h | h | h | h | h
  · exact h hdev
  all_goals simp [h] at hlink hinv

/-- Halving truncates toward 0 on both sides, so it is the halving of each capability (R88). -/
theorem Snapshot.rawWindow_eq (p : Snapshot) (x : Axle) :
    p.rawWindow x =
      ⟨-((if p.link.get x = .impaired then p.regen.get x / 2 else p.regen.get x : Nat) : Int),
        (if p.link.get x = .impaired then p.drive.get x / 2 else p.drive.get x : Nat)⟩ := by
  simp only [Snapshot.rawWindow, truncDiv, Int.neg_tdiv]
  split <;> rfl

/-- The cuts of R90 apply. -/
def Snapshot.RegenIsCut (p : Snapshot) (x : Axle) : Prop :=
  p.demand.regenPermitted = false ∨ ∃ e ∈ p.stack, e.kind = .regenCut ∧ e.axle.names x = true

theorem Snapshot.regenIsCut_iff (p : Snapshot) (x : Axle) :
    (!p.demand.regenPermitted || regenCutOf p.stack x) = true ↔ p.RegenIsCut x := by
  rw [Bool.or_eq_true, Bool.not_eq_true', regenCutOf_iff, Snapshot.RegenIsCut]

theorem Snapshot.cutWindow_of_cut {p : Snapshot} {x : Axle} (h : p.RegenIsCut x) (w : Window) :
    p.cutWindow x w = { w with lo := 0 } :=
  if_pos ((p.regenIsCut_iff x).2 h)

theorem Snapshot.cutWindow_of_not_cut {p : Snapshot} {x : Axle} (h : ¬p.RegenIsCut x) (w : Window) :
    p.cutWindow x w = w :=
  if_neg (mt (p.regenIsCut_iff x).1 h)

theorem Snapshot.capWindow_of_none {p : Snapshot} {x : Axle} (h : axleCapOf p.stack x = none) (w : Window) :
    p.capWindow x w = w := by
  rw [Snapshot.capWindow, h]

theorem Snapshot.capWindow_of_some {p : Snapshot} {x : Axle} {v : Nat} (h : axleCapOf p.stack x = some v) (w : Window) :
    p.capWindow x w = ⟨max w.lo (-(v : Int)), min w.hi v⟩ := by
  rw [Snapshot.capWindow, h]

/-! ## The effective window -/

theorem Snapshot.window_of_stands {p : Snapshot} {x : Axle} (h : p.windowStands x = true) :
    p.window x = p.capWindow x (p.cutWindow x (p.rawWindow x)) := by
  rw [Snapshot.window, if_pos h]

/-- Every step of the construction keeps R92, and so does the window. -/
theorem Snapshot.window_law (p : Snapshot) (x : Axle) (hd : p.drive.get x ≤ 12000) (hr : p.regen.get x ≤ 12000) :
    WindowLaw (p.window x) := by
  cases h : p.windowStands x with
  | false =>
    rw [p.window_of_not_stands x h]
    exact windowLaw_closed
  | true =>
    rw [Snapshot.window_of_stands h]
    exact p.capWindow_law x (p.cutWindow_law x (p.rawWindow_law x hd hr))

/-- The window before the axle cap, by its two bounds (R88, R90). -/
theorem Snapshot.cutWindow_rawWindow {p : Snapshot} {x : Axle} {lo hi : Int}
    (hhi : hi = (if p.link.get x = .impaired then p.drive.get x / 2 else p.drive.get x : Nat))
    (hcut : p.RegenIsCut x → lo = 0)
    (hkeep : ¬p.RegenIsCut x →
      lo = -((if p.link.get x = .impaired then p.regen.get x / 2 else p.regen.get x : Nat) : Int)) :
    p.cutWindow x (p.rawWindow x) = ⟨lo, hi⟩ := by
  by_cases h : p.RegenIsCut x
  · rw [Snapshot.cutWindow_of_cut h, p.rawWindow_eq, hcut h, hhi]
  · rw [Snapshot.cutWindow_of_not_cut h, p.rawWindow_eq, hkeep h, hhi]

/-- Settles O14: the law of R92 is kept by each construction step; the closed cases are those in which the window does not
stand, and elsewhere the steps give the window one after the other. -/
theorem windowsAdmitZero : Obligations.WindowsAdmitZero := by
  intro p x hd hr
  refine ⟨p.window_law x hd hr, fun h => p.window_of_not_stands x (Snapshot.windowStands_eq_false h), ?_⟩
  intro hdev hlink hinv cut caps lo hi hhi hcut hkeep
  have hbefore : p.cutWindow x (p.rawWindow x) = ⟨lo, hi⟩ := Snapshot.cutWindow_rawWindow hhi hcut hkeep
  rw [Snapshot.window_of_stands ((p.windowStands_iff x).2 ⟨hdev, hlink, hinv⟩), hbefore]
  constructor
  · intro hnone
    exact Snapshot.capWindow_of_none (axleCapOf_eq_none hnone) _
  · intro e he hcap hle
    exact Snapshot.capWindow_of_some (axleCapOf_eq_some he hcap hle) _

end Sys2Proof.Machine
end

section
/-! The split of the accepted demand (R98): what the shares give each axle, and O13. -/

namespace Sys2Proof.Machine

/-- For a divisor that is not negative the model's floor is the floor of R98 and R106. -/
theorem floorDiv_eq_fdiv (a : Int) {b : Int} (hb : 0 ≤ b) : floorDiv a b = Int.fdiv a b :=
  (Int.fdiv_eq_ediv_of_nonneg a hb).symm

theorem Snapshot.split_front (p : Snapshot) : p.split.front = (p.accepted * p.share + 512) / 1024 := rfl

theorem Snapshot.split_rear (p : Snapshot) : p.split.rear = p.accepted - p.split.front := rfl

theorem Snapshot.split_within (p : Snapshot) (h0 : 0 ≤ p.share) (h1 : p.share ≤ 1024) :
    Within p.split.front p.accepted ∧ Within p.split.rear p.accepted :=
  within_split p.accepted p.share h0 h1

theorem Snapshot.split_front_of_full_share {p : Snapshot} (h : p.share = 1024) : p.split.front = p.accepted := by
  rw [p.split_front, h]
  omega

theorem Snapshot.split_front_of_no_share {p : Snapshot} (h : p.share = 0) : p.split.front = 0 := by
  rw [p.split_front, h]
  omega

/-- Settles O13: the rear part is the rest, so the front part says everything; that a rounded share leaves both parts between
0 and the demand is `within_split`. -/
theorem splitDividesAcceptedDemand : Obligations.SplitDividesAcceptedDemand := by
  intro p h0 h1
  obtain ⟨hfront, hrear⟩ := p.split_within h0 h1
  have hrest := p.split_rear
  refine ⟨floorDiv_eq_fdiv _ (by norm_num), hrest, by omega, hfront, hrear, fun hfull => ?_, fun hnone => ?_⟩
  · have hall := Snapshot.split_front_of_full_share hfull
    exact ⟨hall, by omega⟩
  · have hzero := Snapshot.split_front_of_no_share hnone
    exact ⟨hzero, by omega⟩

end Sys2Proof.Machine
end

section
/-! Power scaling (R104 to R106): the limits in force, what the power factor is in each direction, and O16. -/

namespace Sys2Proof.Machine

/-! ## The limits in force (R104) -/

theorem Snapshot.limits_of_fresh {p : Snapshot} (h : p.limits.freshness = .fresh) :
    p.dischargeLimit = p.limits.discharge ∧ p.chargeLimit = p.limits.charge := by
  simp only [Snapshot.dischargeLimit, Snapshot.chargeLimit, h, and_self]

theorem Snapshot.limits_of_stale {p : Snapshot} (h : p.limits.freshness = .stale) :
    p.dischargeLimit = min p.limits.discharge p.image.fallbackDischarge ∧
      p.chargeLimit = min p.limits.charge p.image.fallbackCharge := by
  simp only [Snapshot.dischargeLimit, Snapshot.chargeLimit, h, and_self]

theorem Snapshot.limits_of_absent {p : Snapshot} (h : p.limits.freshness = .absent) :
    p.dischargeLimit = p.image.fallbackDischarge ∧ p.chargeLimit = p.image.fallbackCharge := by
  simp only [Snapshot.dischargeLimit, Snapshot.chargeLimit, h, and_self]

/-! ## The power factor (R106) -/

/-- The quotient of a limit by a larger magnitude is a proper fraction of 32 768. -/
theorem quotient_of_exceeded_limit {limit size : Int} (h0 : 0 ≤ limit) (h : limit < size) :
    0 ≤ Int.fdiv (32768 * limit) size ∧ Int.fdiv (32768 * limit) size < 32768 := by
  rw [Int.fdiv_eq_ediv_of_nonneg _ (by omega)]
  exact ⟨Int.ediv_nonneg (by omega) (by omega), Int.ediv_lt_of_lt_mul (by omega) (by omega)⟩

section
variable {e dis chg : Int}

theorem powerFactor_of_discharge_exceeded (hd : 0 ≤ dis) (h : dis < e) :
    powerFactor e dis chg = Int.fdiv (32768 * dis) e := by
  rw [powerFactor, if_pos h, floorDiv_eq_fdiv _ (by omega)]

/-- Limits that are not negative are exceeded in one direction at a time, so the order of the two tests does not matter. -/
theorem powerFactor_of_charge_exceeded (hd : 0 ≤ dis) (hc : 0 ≤ chg) (h : e < -chg) :
    powerFactor e dis chg = Int.fdiv (32768 * chg) (e.natAbs : Int) := by
  rw [powerFactor, if_neg (by omega), if_pos h, floorDiv_eq_fdiv _ (by omega)]

theorem powerFactor_of_within_limits (hlo : -chg ≤ e) (hhi : e ≤ dis) : powerFactor e dis chg = 32768 := by
  rw [powerFactor, if_neg (by omega), if_neg (by omega)]

/-- An estimate exceeds the discharge limit, exceeds the charge limit, or lies within both; the factor is a proper fraction
of 32 768 in the first two cases. -/
theorem powerFactor_range (hd : 0 ≤ dis) (hc : 0 ≤ chg) :
    0 ≤ powerFactor e dis chg ∧ powerFactor e dis chg ≤ 32768 ∧
      (powerFactor e dis chg < 32768 ↔ dis < e ∨ e < -chg) := by
  by_cases hdis : dis < e
  · obtain ⟨h0, h1⟩ := quotient_of_exceeded_limit hd hdis
    rw [powerFactor_of_discharge_exceeded hd hdis]
    exact ⟨h0, h1.le, iff_of_true h1 (.inl hdis)⟩
  by_cases hchg : e < -chg
  · obtain ⟨h0, h1⟩ := quotient_of_exceeded_limit (size := (e.natAbs : Int)) hc (by omega)
    rw [powerFactor_of_charge_exceeded hd hc hchg]
    exact ⟨h0, h1.le, iff_of_true h1 (.inr hchg)⟩
  · rw [powerFactor_of_within_limits (by omega) (by omega)]
    omega

end

/-- The power factor of a pass lies in 0..32 768. -/
theorem Snapshot.factor_range (p : Snapshot) : 0 ≤ p.factor ∧ p.factor ≤ 32768 := by
  obtain ⟨h0, h1, -⟩ := powerFactor_range (e := p.power) (dis := 1600 * (p.dischargeLimit : Int))
    (chg := 1600 * (p.chargeLimit : Int)) (by omega) (by omega)
  exact ⟨h0, h1⟩

/-- Settles O16: the limits by the record's freshness, the factor by the direction in which the estimate exceeds its limit.
A limit of 0 makes the quotient 0, and an estimate of 0 exceeds no limit. -/
theorem powerFactorScalesToLimit : Obligations.PowerFactorScalesToLimit := by
  intro p mech electric
  refine ⟨rfl, Snapshot.limits_of_fresh, Snapshot.limits_of_stale, Snapshot.limits_of_absent, ?_⟩
  intro dis chg e
  have hd : 0 ≤ dis := by omega
  have hc : 0 ≤ chg := by omega
  have hfactor : p.factor = powerFactor e dis chg := rfl
  obtain ⟨h0, h1, hlt⟩ := powerFactor_range (e := e) hd hc
  rw [hfactor]
  refine ⟨powerFactor_of_discharge_exceeded hd, powerFactor_of_charge_exceeded hd hc, powerFactor_of_within_limits,
    h0, h1, hlt, fun hzero hpos => ?_, fun hzero hneg => ?_, fun hzero => ?_⟩
  · rw [powerFactor_of_discharge_exceeded hd (by omega), hzero, mul_zero, Int.zero_fdiv]
  · rw [powerFactor_of_charge_exceeded hd hc (by omega), hzero, mul_zero, Int.zero_fdiv]
  · exact powerFactor_of_within_limits (by omega) (by omega)

end Sys2Proof.Machine
end

section
/-! The scaled torque (R107), its rate limiting (R108) and the final clamp (R109), and O17. -/

namespace Sys2Proof.Machine

/-! ## The scaled torque (R107) -/

theorem truncDiv_scaled_of_nonneg {t f : Int} (ht : 0 ≤ t) (h0 : 0 ≤ f) (h1 : f ≤ 32768) :
    0 ≤ truncDiv (t * f) 32768 ∧ truncDiv (t * f) 32768 ≤ t := by
  have hpos : 0 ≤ t * f := mul_nonneg ht h0
  have hle : t * f ≤ t * 32768 := mul_le_mul_of_nonneg_left h1 ht
  rw [truncDiv, Int.tdiv_eq_ediv_of_nonneg hpos]
  omega

/-- Scaling by a factor of 0 to 32 768 keeps the sign and does not increase the magnitude; truncation is the same on both
sides of 0. -/
theorem within_truncDiv_scaled (t : Int) {f : Int} (h0 : 0 ≤ f) (h1 : f ≤ 32768) :
    Within (truncDiv (t * f) 32768) t := by
  rcases le_total 0 t with ht | ht
  · exact .inl (truncDiv_scaled_of_nonneg ht h0 h1)
  · obtain ⟨hlo, hhi⟩ := truncDiv_scaled_of_nonneg (neg_nonneg.2 ht) h0 h1
    rw [truncDiv, neg_mul, Int.neg_tdiv] at hlo hhi
    exact .inr ⟨neg_le_neg_iff.1 hhi, neg_nonneg.1 hlo⟩

theorem Snapshot.scaled_within (p : Snapshot) (x : Axle) : Within (p.scaled x) (p.fitted x) :=
  within_truncDiv_scaled _ p.factor_range.1 p.factor_range.2

theorem Snapshot.scaled_of_full_factor {p : Snapshot} (h : p.factor = 32768) (x : Axle) : p.scaled x = p.fitted x := by
  rw [Snapshot.scaled, h, truncDiv, Int.mul_tdiv_cancel _ (by norm_num)]

/-! ## Rate limiting (R108) -/

/-- The bypass of R108: a constrained axle whose target lies between 0 and its previous output. -/
def Snapshot.Bypasses (p : Snapshot) (x : Axle) : Prop :=
  (p.excess x ≠ 0 ∨ p.factor < 32768) ∧
    ((0 ≤ p.scaled x ∧ p.scaled x ≤ p.prev.get x) ∨ (p.prev.get x ≤ p.scaled x ∧ p.scaled x ≤ 0))

theorem Snapshot.bypasses_iff (p : Snapshot) (x : Axle) :
    (p.constrained x && between (p.scaled x) (p.prev.get x)) = true ↔ p.Bypasses x := by
  simp only [Snapshot.constrained, between, Snapshot.Bypasses, Bool.and_eq_true, Bool.or_eq_true, decide_eq_true_eq]

/-- The output before the final clamp. -/
def Snapshot.limited (p : Snapshot) (x : Axle) : Int :=
  rateLimit (p.constrained x) (p.scaled x) (p.prev.get x) (p.image.rateUp p.mode) (p.image.rateDown p.mode)

theorem Snapshot.output_eq (p : Snapshot) (x : Axle) :
    p.output x = max (p.window x).lo (min (p.limited x) (p.window x).hi) := rfl

section
variable {p : Snapshot} {x : Axle}

theorem Snapshot.limited_of_bypass (hb : p.Bypasses x) : p.limited x = p.scaled x := by
  rw [Snapshot.limited, rateLimit, if_pos ((p.bypasses_iff x).2 hb)]

theorem Snapshot.limited_of_rise (hb : ¬p.Bypasses x) (h : p.prev.get x < p.scaled x) :
    p.limited x = min (p.scaled x)
      (p.prev.get x + if 0 ≤ p.prev.get x then p.image.rateUp p.mode else p.image.rateDown p.mode) := by
  rw [Snapshot.limited, rateLimit, if_neg (mt (p.bypasses_iff x).1 hb), if_pos h]

theorem Snapshot.limited_of_fall (hb : ¬p.Bypasses x) (h : p.scaled x < p.prev.get x) :
    p.limited x = max (p.scaled x)
      (p.prev.get x - if p.prev.get x ≤ 0 then p.image.rateUp p.mode else p.image.rateDown p.mode) := by
  rw [Snapshot.limited, rateLimit, if_neg (mt (p.bypasses_iff x).1 hb), if_neg (by omega), if_pos h]

theorem Snapshot.limited_of_reached (h : p.scaled x = p.prev.get x) : p.limited x = p.scaled x := by
  rw [Snapshot.limited, rateLimit, if_neg (c := p.prev.get x < p.scaled x) (by omega),
    if_neg (c := p.scaled x < p.prev.get x) (by omega), ite_self]

end

/-- Steps of at least 1 move the output from the previous one toward the target and never past it. -/
theorem Snapshot.limited_between (p : Snapshot) (x : Axle) :
    (p.prev.get x ≤ p.limited x ∧ p.limited x ≤ p.scaled x) ∨
      (p.scaled x ≤ p.limited x ∧ p.limited x ≤ p.prev.get x) := by
  obtain ⟨hup, hdown⟩ := p.image.rates_pos p.mode
  by_cases hb : p.Bypasses x
  · rw [Snapshot.limited_of_bypass hb]
    omega
  rcases lt_trichotomy (p.prev.get x) (p.scaled x) with h | h | h
  · rw [Snapshot.limited_of_rise hb h]
    omega
  · rw [Snapshot.limited_of_reached h.symm]
    omega
  · rw [Snapshot.limited_of_fall hb h]
    omega

/-- Settles O17: the output before the clamp is `Snapshot.limited`; the sign of the previous output picks the step. -/
theorem rateLimitFollowsSteps : Obligations.RateLimitFollowsSteps := by
  intro p x t prev up down bypass
  obtain ⟨hup, hdown⟩ := p.image.rates_pos p.mode
  refine ⟨rfl, p.scaled_within x, fun h => Snapshot.scaled_of_full_factor h x, hup, hdown, p.limited x, p.output_eq x,
    Snapshot.limited_of_bypass, fun hb h hs => ?_, fun hb h hs => ?_, fun hb h hs => ?_, fun hb h hs => ?_,
    Snapshot.limited_of_reached, p.limited_between x⟩
  · rw [Snapshot.limited_of_rise hb h, if_pos hs]
  · rw [Snapshot.limited_of_rise hb h, if_neg hs.not_ge]
  · rw [Snapshot.limited_of_fall hb h, if_pos hs]
  · rw [Snapshot.limited_of_fall hb h, if_neg hs.not_ge]

end Sys2Proof.Machine
end

section
/-! The read service of the Calibration Store (R158): the bytes a payload carries, the ends of READ_CAL, and O50. -/

namespace Sys2Proof.Machine

/-! ## The payload of a read -/

/-- Padded bytes, place by place: the byte that the list has there, and 0 beyond its end. -/
theorem padTo_eq_map_getD (n : Nat) (l : List Byte) : padTo n l = (List.range n).map fun k => l.getD k 0#8 := by
  refine List.ext_getElem (by simp [padTo]) fun k _ _ => ?_
  by_cases hk : k < l.length
  · simp [padTo, List.getElem_append_left hk, List.getElem?_eq_getElem hk]
  · simp [padTo, List.getElem_append_right (not_lt.1 hk), List.getElem?_eq_none (not_lt.1 hk)]

theorem Store.byte_of_not_damaged {c : Store} {sector : Nat} (h : c.sectors.get sector ≠ .damaged) (offset : Nat) :
    c.byte sector offset = readCell c.cells (256 * sector + offset) := if_neg h

/-- What a read returns at a place: the byte at its address, and 0 from the count on. -/
theorem Store.getD_read {c : Store} {sector : Nat} (h : c.sectors.get sector ≠ .damaged) (offset count k : Nat) :
    (c.read sector offset count).getD k 0#8 =
      if k < count then readCell c.cells (256 * sector + offset + k) else 0#8 := by
  split
  · next hk => simp [Store.read, hk, Store.byte_of_not_damaged h, Nat.add_assoc]
  · next hk => simp [Store.read, hk]

/-! ## The ends of READ_CAL -/

theorem Request.inRange_iff (r : Request) :
    r.inRange = true ↔ r.sector ≤ 3 ∧ 1 ≤ r.count ∧ r.count ≤ 4 ∧ r.offset + r.count ≤ 256 := by
  simp [Request.inRange, and_assoc]

section
variable {s : State} {r : Request}

/-- A read that begins completes at once. -/
theorem exec_readCal_of_begins (h : Begins s 0x10#8 r) :
    exec .readCal s = .next (
      if r.inRange then
        if s.store.sectors.get r.sector = .damaged then afterResponse s r .damaged noPayload
        else afterResponse s r .done (padTo 6 (s.store.read r.sector r.offset r.count))
      else afterResponse s r .badAddress noPayload) :=
  congrArg Host.Outcome.next (State.beginService_of_begins .readCal _ h)

theorem exec_readCal_of_readable (h : Begins s 0x10#8 r) (hr : r.inRange = true)
    (hd : s.store.sectors.get r.sector ≠ .damaged) :
    exec .readCal s = .next (afterResponse s r .done (padTo 6 (s.store.read r.sector r.offset r.count))) := by
  rw [exec_readCal_of_begins h, if_pos hr, if_neg hd]

theorem exec_readCal_of_damaged (h : Begins s 0x10#8 r) (hr : r.inRange = true)
    (hd : s.store.sectors.get r.sector = .damaged) :
    exec .readCal s = .next (afterResponse s r .damaged noPayload) := by
  rw [exec_readCal_of_begins h, if_pos hr, if_pos hd]

theorem exec_readCal_of_out_of_range (h : Begins s 0x10#8 r) (hr : ¬r.inRange = true) :
    exec .readCal s = .next (afterResponse s r .badAddress noPayload) := by
  rw [exec_readCal_of_begins h, if_neg hr]

end

/-- Settles O50: the three ends of READ_CAL; a count of at most 4 leaves the last two places of the payload 0. -/
theorem calibrationBytesAreRead : Obligations.CalibrationBytesAreRead := by
  intro s r hb sector count offset inRange at_
  have hrange : r.inRange = true ↔ inRange := r.inRange_iff
  refine ⟨fun hin hd => ?_, fun hin hd => exec_readCal_of_damaged hb (hrange.2 hin) hd,
    fun hout => exec_readCal_of_out_of_range hb (mt hrange.1 hout)⟩
  have hcount : count ≤ 4 := by
    obtain ⟨-, -, hle, -⟩ := hin
    exact hle
  have hat (k : Nat) : (s.store.read sector offset count).getD k 0#8 = at_ k := Store.getD_read hd offset count k
  have hbeyond (k : Nat) (hk : 4 ≤ k) : at_ k = 0#8 := if_neg (not_lt.2 (hcount.trans hk))
  have hpayload : padTo 6 (s.store.read sector offset count) = [at_ 0, at_ 1, at_ 2, at_ 3, 0#8, 0#8] :=
    calc padTo 6 (s.store.read sector offset count)
      _ = [at_ 0, at_ 1, at_ 2, at_ 3, at_ 4, at_ 5] := by rw [padTo_eq_map_getD]; simp only [hat]; rfl
      _ = [at_ 0, at_ 1, at_ 2, at_ 3, 0#8, 0#8] := by rw [hbeyond 4 (by omega), hbeyond 5 (by omega)]
  rw [← hpayload]
  exact exec_readCal_of_readable hb (hrange.2 hin) hd

end Sys2Proof.Machine
end

section
/-! What a command can make of a state, said once for all 55 of them: `Effect` lists the outcomes with what has to hold for
each, and `exec_effect` says that every command has one of them. The laws that every step keeps are proved over this list. -/

namespace Sys2Proof.Machine

/-- A state that the end of a slot, an opening or a report frame can leave behind when it starts from `s`. -/
inductive LinkEffect (s : State) : State → Prop
  | reportGood (x : Axle) (bytes : List Byte) (hs : (s.links.get x).slot = .waiting) :
      LinkEffect s ((s.handReport x (readReport bytes)).slotResult x true (readReport bytes).maintenance)
  | reportBad (x : Axle) (hs : (s.links.get x).slot = .waiting) : LinkEffect s (s.slotResult x false false)
  | slotEnded (x : Axle) : LinkEffect s (s.endSlot x)
  | slotsOpened (e1 e2 : BitVec 32) : LinkEffect s ((s.nextSlot .front e1).nextSlot .rear e2)

/-- A state that a command can leave behind when it starts from `s`. -/
inductive Effect (s : State) : State → Prop
  | idle : Effect s s
  | frameRejected : Effect s (s.raise .frameRejected)
  | reset (kind : ResetKind) : Effect s (s.enterReset kind)
  | released (kind : ResetKind) (h : s.osc.holds kind = true) : Effect s { s with
      osc := { s.osc.setHold kind false with checking := !(s.osc.setHold kind false).held } }
  | initChecked (h : s.osc.checking = true) :
      Effect s ((s.leaveInit.openSlot .front 0 0#32).openSlot .rear 0 0#32)
  | passBegins (ht : s.ae.passTimer = true) (hp : s.ae.pass = none) :
      Effect s { s with ae := { s.ae with pass := some ⟨s.snapshot, s.snapshot.compute⟩ } }
  | passCompletes (p : Pass) (h : s.ae.pass = some p) : Effect s (s.completePass p)
  | demandAccepted (torque : BitVec 16) (mode flags : Byte) (counter : Nat) (h : counter < 16) :
      Effect s (s.acceptDemand torque mode flags counter)
  | wrongCounter : Effect s s.wrongCounter
  | thirdWrongCounter : Effect s s.thirdWrongAfterExpiry
  | resynchronised (counter : Nat) (h : counter < 16) : Effect s (s.resynchronise counter)
  | demandStale (timers : FreshnessTimers) :
      Effect s { s with cp := { s.cp with timers := timers } }.demandGoesStale
  | demandLost (timers : FreshnessTimers) :
      Effect s { s with cp := { s.cp with timers := timers } }.demandGoesLost
  | loadTaken (tongue : BitVec 16) (flags : Byte) : Effect s (s.takeLoad tongue flags)
  | loadStale (timers : FreshnessTimers) : Effect s { s with
      du := { s.du with load := { s.du.load with freshness := .stale } }, cp := { s.cp with timers := timers } }
  | referenceTaken (front rear : BitVec 16) : Effect s (s.takeReference front rear)
  | referenceStale (timers : FreshnessTimers) :
      Effect s ({ s with se := s.se.referenceStale, cp := { s.cp with timers := timers } }.raise .referenceStale)
  | limitsTaken (discharge charge : BitVec 16) : Effect s (s.takeBatteryLimit discharge charge)
  | limitsStale (timers : FreshnessTimers) : Effect s ({ s with
      ae := { s.ae with limits := { s.ae.limits with freshness := .stale } },
      cp := { s.cp with timers := timers } }.raise .limitStale)
  | overrideTaken (axleCode code : Byte) : Effect s { s with se := s.se.takeOverride axleCode code }
  | arbitrated (src : Source) (action : Byte) (f : InterventionFields)
      (h : s.osc.device = .standby ∨ s.osc.device = .active) :
      Effect s (s.arbitrate (Arbiter.act src action f s.ia (s.levelOf src f)))
  | refused (answer : Answer) : Effect s (s.arbitrate ⟨s.ia, [answer], false⟩)
  | expired (src : Source) (tag : Byte) : Effect s (s.arbitrate (s.ia.expire src tag))
  | maskSet (events : BitVec 16) : Effect s { s with eu := s.eu.setMask events }
  | acknowledged (events : BitVec 16) : Effect s { s with eu := s.eu.acknowledge events }
  /-- The status timer, and the port's own side of an offer and its end: only the port changes, and no queue or count of it
  grows beyond what section 8.5 lets it. -/
  | port (p : Port) (ha : p.answers.length ≤ s.cp.answers.length)
      (he : s.cp.errorCount ≤ 255 → p.errorCount ≤ 255) : Effect s { s with cp := p }
  | responseSent (p : Port) (ha : p.answers.length ≤ s.cp.answers.length) (he : p.errorCount ≤ s.cp.errorCount) :
      Effect s { s with cp := p, su := { s.su with responses := s.su.responses.tail } }
  | requestArrives (r : Request) : Effect s { s with su := s.su.arrive r }
  | answers {code : Byte} {r : Request} (hb : Begins s code r) (result : ServiceResult) (payload : List Byte) :
      Effect s (s.respond r result payload)
  | restartAnswered {code : Byte} {r : Request} (hb : Begins s code r) :
      Effect s { s with su := { s.su.complete r .done [] with restartPending := true } }
  | entryRead {code : Byte} {r : Request} (hb : Begins s code r) (payload : List Byte) :
      Effect s ({ s with reading := s.reading + 1 }.respond r .done payload)
  | serviceEntered {code : Byte} {r : Request} (hb : Begins s code r)
      (hd : s.osc.device = .standby ∨ s.osc.device = .safeHold) : Effect s (s.enterService.respond r .done [])
  | countersRead {code : Byte} {r : Request} (hb : Begins s code r) (x : Axle) (payload : List Byte) :
      Effect s ({ s with links := s.links.set x { s.links.get x with nearErrors := 0, farErrors := 0 } }.respond
        r .done payload)
  | loopbackSet {code : Byte} {r : Request} (hb : Begins s code r) (hd : s.osc.device = .service) (x : Axle)
      (kind : LoopState) :
      Effect s ({ s with links := s.links.set x ((s.links.get x).transition kind) }.respond r .done [])
  | executes {code : Byte} {r : Request} (hb : Begins s code r) (hd : s.osc.device = .service) (op : Operation)
      (hop : OperationLaw s.store (some op)) : Effect s (s.execute op)
  | bulkEraseBegins {code : Byte} {r : Request} (hb : Begins s code r) (hd : s.osc.device = .service) :
      Effect s ({ s with store := { s.store with locked := false } }.execute .bulkErase)
  | serviceLeft {r : Request} (ho : s.su.operation = some .imageCheck) (hr : s.su.queue.head? = some r) :
      Effect s (s.leaveService r)
  | written {r : Request} {sector offset : Nat} {data : List Byte}
      (ho : s.su.operation = some (.write sector offset data)) (hr : s.su.queue.head? = some r) :
      Effect s ({ s with store := s.store.endWrite sector offset data }.respond r .done [])
  | erased {r : Request} {sector : Nat} (ho : s.su.operation = some (.erase sector)) (hr : s.su.queue.head? = some r)
      (ok : Bool) (result : ServiceResult) :
      Effect s ({ s with store := s.store.endErase sector ok }.respond r result [])
  | bulkErased {r : Request} (ho : s.su.operation = some .bulkErase) (hr : s.su.queue.head? = some r)
      (e0 e1 e2 e3 : Bool) (result : ServiceResult) :
      Effect s ({ s with store := s.store.endBulkErase e0 e1 e2 e3 }.respond r result [])
  | locked {r : Request} (ho : s.su.operation = some .lock) (hr : s.su.queue.head? = some r) :
      Effect s ({ s with store := { s.store with locked := true } }.respond r .done [])
  | links {t : State} (h : LinkEffect s t) : Effect s t

/-- A command answers a next state, and the state is among its effects. -/
abbrev Runs (s : State) (out : Host.Outcome State Fault Refusal) : Prop := ∃ t, out = .next t ∧ Effect s t

/-! ## The two ways to an owner -/

/-- The port's checks have an effect of their own, or the owner's. -/
theorem Effect.checkFrame {s : State} (src : Source) (roles : List Role) {owner : State → State}
    (h : Effect s (owner s)) : Effect s (s.checkFrame src roles owner) := by
  rcases s.admit_cases src roles owner with ⟨-, h'⟩ | ⟨-, -, h'⟩ | ⟨-, -, h'⟩ <;> rw [h']
  · exact .idle
  · exact s.raise_eq_latched .frameRejected ▸ .frameRejected
  · exact h

/-- Beginning a service has no effect, or that of the service on the request at the head of the queue. -/
theorem Effect.beginService {s : State} (v : Service) {run : Request → State}
    (h : ∀ r, Begins s v.code r → Effect s (run r)) : Effect s (s.beginService v run) := by
  rcases s.beginService_cases v run with h' | ⟨r, hb, h'⟩ <;> rw [h']
  · exact .idle
  · exact h r hb

/-! ## Frames -/

theorem aliveCounter_lt (b : Byte) : aliveCounter b < 16 := Nat.mod_lt _ (by decide)

theorem effect_takeDemand (s : State) (torque : BitVec 16) (mode flags : Byte) {counter : Nat} (h : counter < 16)
    (together : Bool) : Effect s (s.takeDemand torque mode flags counter together) := by
  rcases s.takeDemand_cases torque mode flags counter together with
    ⟨-, h'⟩ | ⟨-, h' | ⟨-, -, -, h'⟩ | ⟨-, h'⟩ | ⟨-, h'⟩⟩ <;> rw [h']
  · exact .idle
  · exact .demandAccepted torque mode flags counter h
  · exact .thirdWrongCounter
  · exact .wrongCounter
  · exact .resynchronised counter h

theorem effect_intervention (s : State) (src : Source) (action : Byte) (f : InterventionFields) :
    Effect s (s.intervention src action f) := by
  refine .checkFrame src _ ?_
  unfold State.takeIntervention
  split
  · next hd => exact .arbitrated src action f hd
  · exact .refused _

theorem effect_control (s : State) (op : Byte) (events : BitVec 16) :
    Effect s { s with eu := s.eu.control op events } := by
  unfold EventUnit.control
  split
  · exact .maskSet events
  · exact .acknowledged events
  · exact .idle

/-- The commands that frames spell, and no others, do what an owner does; the rest are not delivered. -/
theorem runs_deliver (c : Instr) (s : State) : Runs s (deliver c s) := by
  cases c with
  | demand src torque mode flags counter =>
    exact ⟨_, rfl, .checkFrame src _ (effect_takeDemand s torque mode flags (aliveCounter_lt _) _)⟩
  | reference src front rear => exact ⟨_, rfl, .checkFrame src _ (.referenceTaken front rear)⟩
  | batteryLimit src discharge charge => exact ⟨_, rfl, .checkFrame src _ (.limitsTaken discharge charge)⟩
  | load src tongue flags => exact ⟨_, rfl, .checkFrame src _ (.loadTaken tongue flags)⟩
  | slipOverride src axleCode code => exact ⟨_, rfl, .checkFrame src _ (.overrideTaken axleCode code)⟩
  | axleCap src f => exact ⟨_, rfl, effect_intervention s src _ f⟩
  | totalCap src f => exact ⟨_, rfl, effect_intervention s src _ f⟩
  | shareHold src f => exact ⟨_, rfl, effect_intervention s src _ f⟩
  | regenCut src f => exact ⟨_, rfl, effect_intervention s src _ f⟩
  | release src f => exact ⟨_, rfl, effect_intervention s src _ f⟩
  | refusedBadKind src action f => exact ⟨_, rfl, effect_intervention s src action f⟩
  | setMask src events => exact ⟨_, rfl, .checkFrame src _ (.maskSet events)⟩
  | acknowledge src events => exact ⟨_, rfl, .checkFrame src _ (.acknowledged events)⟩
  | eventControlOtherOperation src op events => exact ⟨_, rfl, .checkFrame src _ (effect_control s op events)⟩
  | serviceRequest src code params =>
    refine ⟨_, rfl, .checkFrame src _ ?_⟩
    split
    · exact .requestArrives _
    · exact .frameRejected
  | _ => exact ⟨s, rfl, .idle⟩

theorem runs_frameRejected (f : CanFrame) (s : State) : Runs s (execFrameRejected f s) := by
  unfold execFrameRejected
  split
  · exact ⟨s, rfl, .idle⟩
  · exact ⟨_, rfl, .frameRejected⟩
  · exact runs_deliver _ s

/-! ## Timers, resets and the pass -/

theorem effect_beginReset (s : State) (kind : ResetKind) : Effect s (s.beginReset kind) := by
  rcases s.beginReset_cases kind with ⟨-, h⟩ | ⟨-, h⟩ <;> rw [h]
  · exact .idle
  · exact .reset kind

theorem runs_resetRelease (kind : ResetKind) (s : State) : Runs s (execResetRelease kind s) := by
  refine ⟨_, rfl, ?_⟩
  rcases s.endReset_cases kind with ⟨-, h⟩ | ⟨hk, h⟩ <;> rw [h]
  · exact .idle
  · exact .released kind hk

theorem runs_imageCheckOfInit (s : State) : Runs s (execImageCheckOfInit s) := by
  refine ⟨_, rfl, ?_⟩
  split
  · next h => exact .initChecked h
  · exact .idle

theorem runs_passTimerExpiry (s : State) : Runs s (execPassTimerExpiry s) := by
  refine ⟨_, rfl, ?_⟩
  split
  · next h => exact .passBegins h.1 h.2
  · exact .idle

theorem runs_passCompletion (s : State) : Runs s (execPassCompletion s) := by
  refine ⟨_, rfl, ?_⟩
  split
  · exact .idle
  · next p h => exact .passCompletes p h

theorem effect_timers (s : State) (timers : FreshnessTimers) : Effect s { s with cp := { s.cp with timers := timers } } :=
  .port _ le_rfl id

theorem runs_demandTimer30Ms (s : State) : Runs s (execDemandTimer30Ms s) := by
  refine ⟨_, rfl, ?_⟩
  split
  · dsimp only
    split
    · exact .demandStale _
    · exact effect_timers s _
  · exact .idle

theorem runs_demandTimer130Ms (s : State) : Runs s (execDemandTimer130Ms s) := by
  refine ⟨_, rfl, ?_⟩
  split
  · dsimp only
    split
    · exact .demandLost _
    · exact effect_timers s _
  · exact .idle

theorem runs_loadTimer (s : State) : Runs s (execLoadTimer s) := by
  refine ⟨_, rfl, ?_⟩
  split
  · exact .loadStale _
  · exact .idle

theorem runs_referenceTimer (s : State) : Runs s (execReferenceTimer s) := by
  refine ⟨_, rfl, ?_⟩
  split
  · exact .referenceStale _
  · exact .idle

theorem runs_batteryLimitTimer (s : State) : Runs s (execBatteryLimitTimer s) := by
  refine ⟨_, rfl, ?_⟩
  split
  · exact .limitsStale _
  · exact .idle

/-! ## What lets a service begin or complete -/

/-- The request that R154 lets the SU begin is one that begins, under its own code. -/
theorem State.begins_of_dueRequest {s : State} {r : Request} (h : s.dueRequest = some r) : Begins s r.code r := by
  unfold State.dueRequest at h
  split at h
  · next hc =>
    obtain ⟨hidle, hroom, hrun, hinit⟩ := hc
    refine ⟨h, rfl, hidle, ?_, hrun, hinit⟩
    simp [ServiceUnit.room, hidle] at hroom
    omega
  · cases h

theorem ServiceUnit.executing_eq_some {u : ServiceUnit} {op : Operation} {r : Request} :
    u.executing op = some r ↔ u.operation = some op ∧ u.queue.head? = some r := by
  unfold ServiceUnit.executing
  split <;> simp_all

/-! ## Services -/

theorem runs_unknownService (s : State) : Runs s (execUnknownService s) := by
  refine ⟨_, rfl, ?_⟩
  split
  · exact .idle
  · next r hd =>
    split
    · exact .idle
    · exact .answers (State.begins_of_dueRequest hd) _ _

theorem runs_enterService (s : State) : Runs s (execEnterService s) := by
  refine ⟨_, rfl, .beginService _ fun r hb => ?_⟩
  split
  · next hd => exact .serviceEntered hb hd
  · exact .answers hb _ _

theorem runs_leaveService (s : State) : Runs s (execLeaveService s) := by
  refine ⟨_, rfl, .beginService _ fun r hb => ?_⟩
  split
  · next hd => exact .executes hb hd .imageCheck trivial
  · exact .answers hb _ _

theorem runs_readLinkCounters (s : State) : Runs s (execReadLinkCounters s) := by
  refine ⟨_, rfl, .beginService _ fun r hb => ?_⟩
  split
  · exact .answers hb _ _
  · exact .countersRead hb _ _

theorem runs_setLoopback (s : State) : Runs s (execSetLoopback s) := by
  refine ⟨_, rfl, .beginService _ fun r hb => ?_⟩
  split
  · next hd =>
    split
    · exact .loopbackSet hb hd _ _
    · exact .answers hb _ _
  · exact .answers hb _ _

theorem runs_readArbiterEntry (s : State) : Runs s (execReadArbiterEntry s) := by
  refine ⟨_, rfl, .beginService _ fun r hb => ?_⟩
  split
  · exact .answers hb _ _
  · split
    · exact .answers hb _ _
    · split
      · exact .answers hb _ _
      · exact .entryRead hb _

theorem runs_readCal (s : State) : Runs s (execReadCal s) := by
  refine ⟨_, rfl, .beginService _ fun r hb => ?_⟩
  split
  · split <;> exact .answers hb _ _
  · exact .answers hb _ _

theorem Request.length_data (r : Request) : r.data.length ≤ r.count := by simp [Request.data]

theorem runs_writeCal (s : State) : Runs s (execWriteCal s) := by
  refine ⟨_, rfl, .beginService _ fun r hb => ?_⟩
  split
  · exact .answers hb _ _
  split
  · exact .answers hb _ _
  split
  · exact .answers hb _ _
  split
  · exact .answers hb _ _
  split
  · next hd hr hl _ _ =>
    obtain ⟨hsector, -, -, hend⟩ := r.inRange_iff.1 (by simpa using hr)
    have := r.length_data
    exact .executes hb (not_not.1 hd) _ ⟨hsector, by omega, by simpa using hl⟩
  · exact .answers hb _ _

theorem runs_eraseSector (s : State) : Runs s (execEraseSector s) := by
  refine ⟨_, rfl, .beginService _ fun r hb => ?_⟩
  split
  · exact .answers hb _ _
  split
  · exact .answers hb _ _
  split
  · exact .answers hb _ _
  · next hd hk hl => exact .executes hb (not_not.1 hd) _ ⟨not_lt.1 hk, by simpa using hl⟩

theorem runs_bulkErase (s : State) : Runs s (execBulkErase s) := by
  refine ⟨_, rfl, .beginService _ fun r hb => ?_⟩
  split
  · exact .answers hb _ _
  · next hd => exact .bulkEraseBegins hb (not_not.1 hd)

theorem runs_lockStore (s : State) : Runs s (execLockStore s) := by
  refine ⟨_, rfl, .beginService _ fun r hb => ?_⟩
  split
  · exact .answers hb _ _
  · next hd => exact .executes hb (not_not.1 hd) _ trivial

/-! ## Completions -/

theorem runs_leaveServiceCompletion (s : State) : Runs s (execLeaveServiceCompletion s) := by
  refine ⟨_, rfl, ?_⟩
  split
  · exact .idle
  · next r h =>
    obtain ⟨ho, hr⟩ := ServiceUnit.executing_eq_some.1 h
    exact .serviceLeft ho hr

theorem runs_writeCalCompletion (s : State) : Runs s (execWriteCalCompletion s) := by
  refine ⟨_, rfl, ?_⟩
  split
  · next ho hr => exact .written ho hr
  · exact .idle

theorem runs_eraseSectorCompletion (ok : Bool) (s : State) : Runs s (execEraseSectorCompletion ok s) := by
  refine ⟨_, rfl, ?_⟩
  split
  · next ho hr => exact .erased ho hr ok _
  · exact .idle

theorem runs_bulkEraseCompletion (e0 e1 e2 e3 : Bool) (s : State) : Runs s (execBulkEraseCompletion e0 e1 e2 e3 s) := by
  refine ⟨_, rfl, ?_⟩
  split
  · exact .idle
  · next r h =>
    obtain ⟨ho, hr⟩ := ServiceUnit.executing_eq_some.1 h
    exact .bulkErased ho hr e0 e1 e2 e3 _

theorem runs_lockStoreCompletion (s : State) : Runs s (execLockStoreCompletion s) := by
  refine ⟨_, rfl, ?_⟩
  split
  · exact .idle
  · next r h =>
    obtain ⟨ho, hr⟩ := ServiceUnit.executing_eq_some.1 h
    exact .locked ho hr

/-! ## Links -/

theorem Link.takesReport_iff (l : Link) :
    l.takesReport = true ↔ l.slot = .waiting ∧ (l.loop = .opened ∨ l.loop = .far) := by
  simp [Link.takesReport]

theorem runs_reportFrame (x : Axle) (bytes : List Byte) (s : State) : Runs s (execReportFrame x bytes s) := by
  refine ⟨_, rfl, ?_⟩
  dsimp only
  split
  · next h =>
    obtain ⟨hs, -⟩ := (s.links.get x).takesReport_iff.1 h.1
    split
    · exact .links (.reportGood x _ hs)
    · exact .links (.reportBad x hs)
  · exact .idle

/-! ## The port -/

theorem runs_statusTimerExpiry (s : State) : Runs s (execStatusTimerExpiry s) := by
  refine ⟨_, rfl, ?_⟩
  split
  · exact .port _ le_rfl id
  · exact .idle

theorem runs_frameOffer (s : State) : Runs s (execFrameOffer s) := by
  refine ⟨_, rfl, ?_⟩
  split
  · split
    · exact .port _ le_rfl id
    · exact .idle
  · exact .idle

theorem Port.sentFrom_bounds (p : Port) (o : TxOrigin) :
    (p.sentFrom o).answers.length ≤ p.answers.length ∧ (p.sentFrom o).errorCount = p.errorCount := by
  cases o <;> simp [Port.sentFrom]

theorem Port.notSentFrom_bounds (p : Port) (o : TxOrigin) :
    (p.notSentFrom o).answers = p.answers ∧ (p.notSentFrom o).errorCount = p.errorCount := by
  cases o <;> simp [Port.notSentFrom]

theorem Port.countFailure_bounds (p : Port) : p.countFailure.answers = p.answers ∧ p.countFailure.errorCount ≤ 255 := by
  unfold Port.countFailure
  split
  · exact ⟨rfl, by simp⟩
  · exact ⟨rfl, by dsimp only; omega⟩

/-- The reset that a RESTART's response begins is that of the state before the transmission ended: it clears what the end of
the transmission changed. -/
theorem effect_responseSent (s : State) (p : Port) (ha : p.answers.length ≤ s.cp.answers.length)
    (he : p.errorCount ≤ s.cp.errorCount) : Effect s { s with cp := p }.responseSent := by
  have hsent := Effect.responseSent p ha he
  unfold State.responseSent
  split
  · exact hsent
  · split
    · rcases State.beginReset_cases _ .restart with ⟨-, h⟩ | ⟨-, h⟩ <;> rw [h]
      · exact hsent
      · exact .reset .restart
    · exact hsent

theorem runs_transmissionSuccess (s : State) : Runs s (execTransmissionSuccess s) := by
  refine ⟨_, rfl, ?_⟩
  split
  · exact .idle
  · next t _ =>
    obtain ⟨ha, he⟩ := Port.sentFrom_bounds
      { s.cp with transmission := none, errorCount := s.cp.errorCount - 1 } t.origin
    have he' := he.le.trans (Nat.sub_le _ _)
    dsimp only
    split
    · exact effect_responseSent s _ ha he'
    · exact .port _ ha he'.trans

theorem runs_transmissionFailure (s : State) : Runs s (execTransmissionFailure s) := by
  refine ⟨_, rfl, ?_⟩
  split
  · exact .idle
  · next t _ =>
    obtain ⟨ha, -⟩ := Port.notSentFrom_bounds { s.cp with transmission := none } t.origin
    obtain ⟨hc, he⟩ := Port.countFailure_bounds (Port.notSentFrom { s.cp with transmission := none } t.origin)
    exact .port _ (by rw [hc, ha]) fun _ => he

theorem runs_arbitrationLoss (s : State) : Runs s (execArbitrationLoss s) := by
  refine ⟨_, rfl, ?_⟩
  split
  · exact .idle
  · next t _ =>
    obtain ⟨ha, he⟩ := Port.notSentFrom_bounds { s.cp with transmission := none } t.origin
    exact .port _ (by rw [ha]) (by rw [he]; exact id)

theorem runs_silentEnd (s : State) : Runs s (execSilentEnd s) := by
  refine ⟨_, rfl, ?_⟩
  split
  · exact .port _ le_rfl fun _ => Nat.zero_le _
  · exact .idle

/-! ## Every command -/

/-- Every command, in every state, answers a next state that is among the effects. -/
theorem exec_effect (c : Instr) (s : State) : Runs s (exec c s) := by
  cases c with
  | powerReset => exact ⟨_, rfl, effect_beginReset s .power⟩
  | pinReset => exact ⟨_, rfl, effect_beginReset s .pin⟩
  | resetRelease kind => exact runs_resetRelease kind s
  | imageCheckOfInit => exact runs_imageCheckOfInit s
  | passTimerExpiry => exact runs_passTimerExpiry s
  | passCompletion => exact runs_passCompletion s
  | demandTimer30Ms => exact runs_demandTimer30Ms s
  | demandTimer130Ms => exact runs_demandTimer130Ms s
  | loadTimer => exact runs_loadTimer s
  | referenceTimer => exact runs_referenceTimer s
  | batteryLimitTimer => exact runs_batteryLimitTimer s
  | holdExpiry src tag => exact ⟨_, rfl, .expired src tag⟩
  | frameRejected f => exact runs_frameRejected f s
  | unknownService => exact runs_unknownService s
  | enterService => exact runs_enterService s
  | leaveService => exact runs_leaveService s
  | leaveServiceCompletion => exact runs_leaveServiceCompletion s
  | readLinkCounters => exact runs_readLinkCounters s
  | setLoopback => exact runs_setLoopback s
  | readArbiterEntry => exact runs_readArbiterEntry s
  | readIdentity => exact ⟨_, rfl, .beginService _ fun r hb => .answers hb _ _⟩
  | restart => exact ⟨_, rfl, .beginService _ fun r hb => .restartAnswered hb⟩
  | readCal => exact runs_readCal s
  | writeCal => exact runs_writeCal s
  | writeCalCompletion => exact runs_writeCalCompletion s
  | eraseSector => exact runs_eraseSector s
  | eraseSectorCompletion ok => exact runs_eraseSectorCompletion ok s
  | bulkErase => exact runs_bulkErase s
  | bulkEraseCompletion e0 e1 e2 e3 => exact runs_bulkEraseCompletion e0 e1 e2 e3 s
  | lockStore => exact runs_lockStore s
  | lockStoreCompletion => exact runs_lockStoreCompletion s
  | slotOpening e1 e2 => exact ⟨_, rfl, .links (.slotsOpened e1 e2)⟩
  | reportFrame x bytes => exact runs_reportFrame x bytes s
  | slotEnd x => exact ⟨_, rfl, .links (.slotEnded x)⟩
  | statusTimerExpiry => exact runs_statusTimerExpiry s
  | frameOffer => exact runs_frameOffer s
  | transmissionSuccess => exact runs_transmissionSuccess s
  | transmissionFailure => exact runs_transmissionFailure s
  | arbitrationLoss => exact runs_arbitrationLoss s
  | silentEnd => exact runs_silentEnd s
  | demand src torque mode flags counter => exact runs_deliver (.demand src torque mode flags counter) s
  | load src tongue flags => exact runs_deliver (.load src tongue flags) s
  | reference src front rear => exact runs_deliver (.reference src front rear) s
  | batteryLimit src discharge charge => exact runs_deliver (.batteryLimit src discharge charge) s
  | slipOverride src axleCode code => exact runs_deliver (.slipOverride src axleCode code) s
  | axleCap src f => exact runs_deliver (.axleCap src f) s
  | totalCap src f => exact runs_deliver (.totalCap src f) s
  | shareHold src f => exact runs_deliver (.shareHold src f) s
  | regenCut src f => exact runs_deliver (.regenCut src f) s
  | release src f => exact runs_deliver (.release src f) s
  | refusedBadKind src action f => exact runs_deliver (.refusedBadKind src action f) s
  | setMask src events => exact runs_deliver (.setMask src events) s
  | acknowledge src events => exact runs_deliver (.acknowledge src events) s
  | eventControlOtherOperation src op events => exact runs_deliver (.eventControlOtherOperation src op events) s
  | serviceRequest src code params => exact runs_deliver (.serviceRequest src code params) s

end Sys2Proof.Machine
end

section
/-! Steps: a step runs a command or idles, and a law that every effect keeps is kept by every step. The blocks that the link
effects leave alone, the blocks that a law of one block has to look at, and O1, O2. -/

namespace Sys2Proof.Machine

/-! ## Which blocks a link effect changes -/

theorem State.nextSlot_frame (s : State) (x : Axle) (e : BitVec 32) :
    ∃ links cu eu, s.nextSlot x e = { s with links := links, cu := cu, eu := eu } := by
  unfold State.nextSlot
  split
  · exact ⟨s.links, s.cu, s.eu, rfl⟩
  · obtain ⟨links, cu, eu, h⟩ := s.endSlot_frame x
    rw [h]
    exact State.openSlot_frame _ x _ e

/-- Slots and report frames change the links, the capabilities, the SE and the events, and nothing else. -/
theorem LinkEffect.frame {s t : State} (h : LinkEffect s t) :
    ∃ links cu se eu, t = { s with links := links, cu := cu, se := se, eu := eu } := by
  cases h with
  | reportGood x bytes hs =>
    obtain ⟨links, cu, se, eu, h⟩ := s.handReport_frame x (readReport bytes)
    obtain ⟨links', cu', eu', h'⟩ := State.slotResult_frame { s with links := links, cu := cu, se := se, eu := eu } x
      true (readReport bytes).maintenance
    exact ⟨links', cu', se, eu', by rw [h, h']⟩
  | reportBad x hs =>
    obtain ⟨links, cu, eu, h⟩ := s.slotResult_frame x false false
    exact ⟨links, cu, s.se, eu, h⟩
  | slotEnded x =>
    obtain ⟨links, cu, eu, h⟩ := s.endSlot_frame x
    exact ⟨links, cu, s.se, eu, h⟩
  | slotsOpened e1 e2 =>
    obtain ⟨links, cu, eu, h⟩ := s.nextSlot_frame .front e1
    obtain ⟨links', cu', eu', h'⟩ := State.nextSlot_frame { s with links := links, cu := cu, eu := eu } .rear e2
    exact ⟨links', cu', s.se, eu', by rw [h, h']⟩

/-- The first slots open on the links that INIT leaves. -/
theorem State.initChecked_frame (s : State) :
    ∃ links cu eu, (s.leaveInit.openSlot .front 0 0#32).openSlot .rear 0 0#32 =
      { s.leaveInit with links := links, cu := cu, eu := eu } := by
  obtain ⟨links, cu, eu, h⟩ := s.leaveInit.openSlot_frame .front 0 0#32
  obtain ⟨links', cu', eu', h'⟩ := State.openSlot_frame { s.leaveInit with links := links, cu := cu, eu := eu } .rear 0 0#32
  exact ⟨links', cu', eu', by rw [h, h']⟩

/-! ## What a law of one block has to look at -/

theorem Effect.pending_eq {s t : State} (h : Effect s t) : t.pending = s.pending := by
  cases h with
  | initChecked h =>
    obtain ⟨links, cu, eu, h⟩ := s.initChecked_frame
    rw [h]
    rfl
  | passCompletes p h =>
    obtain ⟨eu, h⟩ := s.completePass_frame p
    rw [h]
  | wrongCounter =>
    unfold State.wrongCounter
    split <;> rfl
  | arbitrated | refused | expired => exact s.arbitrate_pending _
  | serviceEntered => exact State.arbitrate_pending _ _
  | serviceLeft =>
    unfold State.leaveService
    dsimp only
    split <;> rfl
  | links h =>
    obtain ⟨links, cu, se, eu, rfl⟩ := h.frame
    rfl
  | _ => rfl

/-! ## Steps -/

/-- Settles O1: both clauses are the definition of a step on the two forms of the queue. -/
theorem stepRunsFrontCommand : Obligations.StepRunsFrontCommand := by
  refine ⟨fun c s => rfl, fun s h => ?_⟩
  rw [step, h]

/-- Settles O2: every command has an effect, and no effect touches the queue. -/
theorem everyCommandCompletesAndKeepsQueue : Obligations.EveryCommandCompletesAndKeepsQueue := by
  intro c s
  obtain ⟨t, hrun, heffect⟩ := exec_effect c s
  exact ⟨t, hrun, heffect.pending_eq⟩

/-- A step has an effect on the state with the command taken from the queue; on an empty queue it idles. -/
theorem step_effect {s t : State} (h : step s = .next t) : ∃ rest, Effect { s with pending := rest } t := by
  unfold step at h
  split at h
  · cases h
    exact ⟨_, .idle⟩
  · next c rest _ =>
    obtain ⟨t', hrun, heffect⟩ := exec_effect c { s with pending := rest }
    rw [hrun] at h
    cases h
    exact ⟨rest, heffect⟩

/-- A law that does not speak of the queue and that every effect keeps is kept by every step. -/
theorem step_keeps {Law : State → Prop} (hq : ∀ s rest, Law s → Law { s with pending := rest })
    (he : ∀ {s t}, Effect s t → Law s → Law t) {s t : State} (hs : Law s) (h : step s = .next t) : Law t := by
  obtain ⟨rest, heffect⟩ := step_effect h
  exact he heffect (hq s rest hs)

end Sys2Proof.Machine
end

section
/-! The laws of the two intervention lists: what each operation of the arbiter comes to within them, that it keeps them,
and O56. -/

namespace Sys2Proof.Machine

/-! ## Entries with no identity and no arrival order twice -/

/-- No identity and no arrival order twice, and all arrival orders older than a count (R63, R66). -/
structure Distinct (arrivals : Nat) (l : List Entry) : Prop where
  identities : l.Pairwise (fun x y => ¬sameIdentity x y)
  orders_differ : l.Pairwise (fun x y => x.order ≠ y.order)
  orders_past : ∀ e ∈ l, e.order < arrivals

/-- Fewer entries, in another order, are distinct still. -/
theorem Distinct.of_subperm {n : Nat} {l l' : List Entry} (h : Distinct n l) (hl : l'.Subperm l) : Distinct n l' := by
  have hmem := hl.subset
  obtain ⟨k, hperm, hsub⟩ := hl
  exact ⟨(h.identities.sublist hsub).perm hperm fun hxy hyx => hxy ⟨hyx.1.symm, hyx.2.symm⟩,
    (h.orders_differ.sublist hsub).perm hperm Ne.symm, fun e he => h.orders_past e (hmem he)⟩

/-- A new entry takes the next arrival order and has an identity that none of the others has. -/
structure IsNew (a : Arbiter) (e : Entry) : Prop where
  order_eq : e.order = a.arrivals
  identity : ∀ x ∈ a.stack ++ a.waiting, ¬sameIdentity e x

theorem Distinct.cons {a : Arbiter} {e : Entry} (h : Distinct a.arrivals (a.stack ++ a.waiting)) (hn : IsNew a e) :
    Distinct (a.arrivals + 1) (e :: (a.stack ++ a.waiting)) where
  identities := List.pairwise_cons.2 ⟨hn.identity, h.identities⟩
  orders_differ := List.pairwise_cons.2
    ⟨fun x hx => by have := h.orders_past x hx; rw [hn.order_eq]; omega, h.orders_differ⟩
  orders_past x hx := by
    rcases List.mem_cons.1 hx with rfl | hx
    · exact hn.order_eq ▸ Nat.lt_succ_self _
    · exact (h.orders_past x hx).trans (Nat.lt_succ_self _)

theorem ListLaws.distinct {a : Arbiter} (h : ListLaws a) : Distinct a.arrivals (a.stack ++ a.waiting) :=
  ⟨h.identities, h.orders_differ, h.orders_past⟩

/-- The laws of the lists, those of their entries taken together. -/
theorem ListLaws.of_distinct {a : Arbiter} (hs : a.stack.length ≤ 4) (hw : a.waiting.length ≤ 6)
    (hlevels : a.stack.Pairwise (fun x y => x.level < y.level)) (horder : a.waiting.Pairwise WaitingOrder)
    (htop : ∀ e ∈ a.waiting, ∃ top ∈ a.stack.head?, top.level ≤ e.level)
    (hd : Distinct a.arrivals (a.stack ++ a.waiting)) : ListLaws a :=
  ⟨hs, hw, hlevels, horder, htop, hd.identities, hd.orders_differ, hd.orders_past⟩

/-! ## Levels -/

theorem betterThanTop_iff (level : Nat) (stack : List Entry) :
    betterThanTop level stack = true ↔ ∀ top ∈ stack.head?, level < top.level := by
  cases stack <;> simp [betterThanTop]

theorem betterThanTop_eq_false {level : Nat} {stack : List Entry} {top : Entry} (ht : top ∈ stack.head?)
    (h : top.level ≤ level) : betterThanTop level stack = false := by
  rw [Bool.eq_false_iff, Ne, betterThanTop_iff]
  exact fun hall => absurd (hall top ht) (not_lt.2 h)

/-- The top of a stack is at least as good as each entry of it. -/
theorem level_le_of_head {stack : List Entry} (h : stack.Pairwise (fun x y => x.level < y.level)) {top x : Entry}
    (ht : top ∈ stack.head?) (hx : x ∈ stack) : top.level ≤ x.level := by
  cases stack with
  | nil => simp at hx
  | cons y l =>
    obtain rfl : y = top := by simpa using ht
    rcases List.mem_cons.1 hx with rfl | hx
    · exact le_rfl
    · exact ((List.pairwise_cons.1 h).1 x hx).le

/-- The first pending entry is at least as good as each of the others. -/
theorem level_le_of_first {first x : Entry} {rest : List Entry} (h : (first :: rest).Pairwise WaitingOrder)
    (hx : x ∈ first :: rest) : first.level ≤ x.level := by
  rcases List.mem_cons.1 hx with rfl | hx
  · exact le_rfl
  · rcases (List.pairwise_cons.1 h).1 x hx with h | h
    · exact h.le
    · exact h.1.le

/-- What is better than the top is better than every entry of both lists. -/
theorem ListLaws.lt_of_better {a : Arbiter} (h : ListLaws a) {level : Nat} (hb : betterThanTop level a.stack = true) :
    ∀ x ∈ a.stack ++ a.waiting, level < x.level := by
  have hlt := (betterThanTop_iff _ _).1 hb
  intro x hx
  rcases List.mem_append.1 hx with hx | hx
  · obtain ⟨top, ht⟩ := Option.isSome_iff_exists.1 (List.isSome_head?.2 (List.ne_nil_of_mem hx))
    exact (hlt top ht).trans_le (level_le_of_head h.stack_levels ht hx)
  · obtain ⟨top, ht, hle⟩ := h.top_best x hx
    exact (hlt top ht).trans_le hle

/-! ## Seeking a place (R69) -/

/-- Whatever seeking a place comes to, the Pending List is in order and within its capacity, and holds no more than it held
and the entry. -/
theorem seekPlace_laws {l : List Entry} {e : Entry} (hlen : l.length ≤ 6) (ho : l.Pairwise WaitingOrder)
    (hne : ∀ x ∈ l, x.order ≠ e.order) :
    (seekPlace l e).1.length ≤ 6 ∧ (seekPlace l e).1.Pairwise WaitingOrder ∧ (seekPlace l e).1.Subperm (e :: l) := by
  rcases seekPlace_cases l e with ⟨hroom, h⟩ | ⟨-, last, hlast, -, h⟩ | ⟨-, last, -, -, h⟩ <;> rw [h]
  · have hperm := insertWaiting_perm e l
    exact ⟨by rw [hperm.length_eq, List.length_cons]; omega, insertWaiting_ordered ho hne, hperm.subperm⟩
  · have hsub := l.dropLast_sublist
    have hperm := insertWaiting_perm e l.dropLast
    refine ⟨?_, insertWaiting_ordered (ho.sublist hsub) fun x hx => hne x (hsub.subset hx), ?_⟩
    · rw [hperm.length_eq, List.length_cons, List.length_dropLast]
      omega
    · exact hperm.subperm.trans (hsub.cons_cons e).subperm
  · exact ⟨hlen, ho, List.subperm_cons_self⟩

/-! ## Placement (R67 to R69) -/

section
variable {a : Arbiter} {e : Entry}

theorem ListLaws.push (h : ListLaws a) (hn : IsNew a e) (hb : betterThanTop e.level a.stack = true)
    (hroom : a.stack.length < 4) :
    ListLaws { a with stack := e :: a.stack, arrivals := a.arrivals + 1 } := by
  have hlt := h.lt_of_better hb
  refine .of_distinct hroom h.waiting_capacity (List.pairwise_cons.2 ⟨fun x hx => hlt x (by simp [hx]), h.stack_levels⟩)
    h.waiting_order (fun x hx => ⟨e, rfl, (hlt x (by simp [hx])).le⟩) (h.distinct.cons hn)

theorem Arbiter.preempt_ia (a : Arbiter) (e bottom : Entry) : (a.preempt e bottom).ia =
    { stack := e :: a.stack.dropLast, waiting := (seekPlace a.waiting bottom).1, arrivals := a.arrivals + 1 } := rfl

/-- An entry of the stack and one of the Pending List have different arrival orders. -/
theorem ListLaws.order_ne (h : ListLaws a) {x y : Entry} (hx : x ∈ a.stack) (hy : y ∈ a.waiting) : y.order ≠ x.order :=
  ((List.pairwise_append.1 h.orders_differ).2.2 x hx y hy).symm

theorem ListLaws.preempt (h : ListLaws a) (hn : IsNew a e) (hb : betterThanTop e.level a.stack = true) {bottom : Entry}
    (hbot : a.stack.getLast? = some bottom) : ListLaws (a.preempt e bottom).ia := by
  have hlt := h.lt_of_better hb
  have hstack : a.stack.dropLast ++ [bottom] = a.stack := List.dropLast_append_getLast? bottom hbot
  have hmem : bottom ∈ a.stack := hstack ▸ by simp
  have hsub : a.stack.dropLast.Sublist a.stack := a.stack.dropLast_sublist
  obtain ⟨hlen, horder, hsubperm⟩ := seekPlace_laws h.waiting_capacity h.waiting_order fun x hx => h.order_ne hmem hx
  rw [a.preempt_ia]
  refine .of_distinct ?_ hlen ?_ horder ?_ ((h.distinct.cons hn).of_subperm ?_)
  · have hlength := congrArg List.length hstack
    rw [List.length_append, List.length_singleton] at hlength
    exact hlength.trans_le h.stack_capacity
  · exact List.pairwise_cons.2 ⟨fun x hx => hlt x (by simp [hsub.subset hx]), h.stack_levels.sublist hsub⟩
  · intro x hx
    refine ⟨e, rfl, (hlt x ?_).le⟩
    rcases List.mem_cons.1 (hsubperm.subset hx) with rfl | hx
    · simp [hmem]
    · simp [hx]
  · have hperm : (a.stack.dropLast ++ (bottom :: a.waiting)).Perm (a.stack ++ a.waiting) := by
      rw [List.append_cons, hstack]
    exact (List.subperm_cons e).2 (((List.subperm_append_left _).2 hsubperm).trans hperm.subperm)

theorem ListLaws.queue (h : ListLaws a) (hn : IsNew a e) (hb : betterThanTop e.level a.stack = false) :
    ListLaws (a.queue e).ia := by
  unfold Arbiter.queue
  dsimp only
  split
  · have hne : ∀ x ∈ a.waiting, x.order ≠ e.order := fun x hx => by
      have := h.orders_past x (by simp [hx])
      rw [hn.order_eq]
      omega
    obtain ⟨hlen, horder, hsubperm⟩ := seekPlace_laws h.waiting_capacity h.waiting_order hne
    refine .of_distinct h.stack_capacity hlen h.stack_levels horder ?_ ((h.distinct.cons hn).of_subperm ?_)
    · intro x hx
      rcases List.mem_cons.1 (hsubperm.subset hx) with rfl | hx
      · have hnot := mt (betterThanTop_iff _ _).2 (Bool.eq_false_iff.1 hb)
        push Not at hnot
        exact hnot
      · exact h.top_best x hx
    · exact ((List.subperm_append_left _).2 hsubperm).trans List.perm_middle.subperm
  · exact h

/-- Placing a new entry keeps the laws of the lists. -/
theorem ListLaws.place (h : ListLaws a) (hn : IsNew a e) : ListLaws (a.place e).ia := by
  unfold Arbiter.place
  split
  · next hb =>
    split
    · next hroom => exact h.push hn hb hroom
    · split
      · next hbot => exact h.preempt hn hb hbot
      · exact h
  · next hb => exact h.queue hn (Bool.eq_false_iff.2 hb)

end

/-! ## Removal and admission (R72, R75) -/

theorem admitFrom_of_better {stack rest : List Entry} {first : Entry} (hroom : stack.length < 4)
    (hw : (first :: rest).Pairwise WaitingOrder) (hb : betterThanTop first.level stack = true) :
    admitFrom stack (first :: rest) = (first :: stack, rest, [first.answer .accepted .stack]) := by
  have hrest : admitFrom (first :: stack) rest = (first :: stack, rest, []) := by
    cases rest with
    | nil => rfl
    | cons second rest =>
      have hle : first.level ≤ second.level := level_le_of_first hw (by simp)
      rw [admitFrom, if_neg]
      rw [betterThanTop_eq_false (Option.mem_def.2 List.head?_cons) hle]
      simp
  rw [admitFrom, if_pos ⟨hroom, hb⟩, hrest]

theorem admitFrom_of_not_better {stack rest : List Entry} {first : Entry}
    (hb : betterThanTop first.level stack = false) :
    admitFrom stack (first :: rest) = (stack, first :: rest, []) := by
  rw [admitFrom, if_neg (by simp [hb])]

/-- An identity that is searched and found is that of an entry. -/
theorem Arbiter.find_eq_some {a : Arbiter} {src : Source} {tag : Byte} {e : Entry} {place : Place}
    (h : a.find src tag = some (e, place)) : e ∈ a.stack ++ a.waiting ∧ e.source = src ∧ e.tag = tag := by
  have hfound {l : List Entry} (hl : findEntry l src tag = some e) : e ∈ l ∧ e.source = src ∧ e.tag = tag :=
    ⟨List.mem_of_find?_eq_some hl, (e.is_iff src tag).1 (List.find?_some (p := fun x : Entry => x.is src tag) hl)⟩
  unfold Arbiter.find at h
  split at h
  · next d hd =>
    obtain ⟨rfl, -⟩ := Prod.mk.inj (Option.some.inj h)
    obtain ⟨hmem, hid⟩ := hfound hd
    exact ⟨List.mem_append_left _ hmem, hid⟩
  · obtain ⟨d, hd, heq⟩ := Option.map_eq_some_iff.1 h
    obtain ⟨rfl, -⟩ := Prod.mk.inj heq
    obtain ⟨hmem, hid⟩ := hfound hd
    exact ⟨List.mem_append_right _ hmem, hid⟩

section
variable {a : Arbiter} {e : Entry}

/-- Within the laws, dropping an entry's identity drops the entry. -/
theorem ListLaws.dropEntry_eq (h : ListLaws a) (he : e ∈ a.stack ++ a.waiting) {l : List Entry}
    (hl : ∀ x ∈ l, x ∈ a.stack ++ a.waiting) : dropEntry l e.source e.tag = l.filter (fun x => x ≠ e) := by
  refine List.filter_congr fun x hx => ?_
  have := h.is_iff_eq (hl x hx) he
  by_cases hxe : x = e <;> simp_all

/-- Everything removing an entry can come to within the laws: an entry that is not the top leaves its list; the top leaves
the stack, and the first pending entry stays where it is, or follows it there if it is better than the new top. -/
theorem ListLaws.remove_cases (h : ListLaws a) (he : e ∈ a.stack ++ a.waiting) :
    (a.stack.head? ≠ some e ∧ a.remove e.source e.tag =
      ({ a with stack := a.stack.filter (fun x => x ≠ e), waiting := a.waiting.filter (fun x => x ≠ e) }, [])) ∨
    (∃ below, a.stack = e :: below ∧ (∀ first ∈ a.waiting.head?, ∃ top ∈ below.head?, top.level ≤ first.level) ∧
      a.remove e.source e.tag = ({ a with stack := below }, [])) ∨
    (∃ below first rest, a.stack = e :: below ∧ a.waiting = first :: rest ∧
      (∀ top ∈ below.head?, first.level < top.level) ∧ a.remove e.source e.tag =
        ({ a with stack := first :: below, waiting := rest }, [first.answer .accepted .stack])) := by
  have hstack := h.dropEntry_eq he (l := a.stack) fun x hx => by simp [hx]
  have hwaiting := h.dropEntry_eq he (l := a.waiting) fun x hx => by simp [hx]
  have htop : a.isTop e.source e.tag = true ↔ a.stack.head? = some e := by
    unfold Arbiter.isTop
    split
    · next hs => simp [hs]
    · next top below hs => rw [h.is_iff_eq (by simp [hs]) he, hs, List.head?_cons, Option.some_inj]
  by_cases ht : a.stack.head? = some e
  · obtain ⟨below, hbelow⟩ : ∃ below, a.stack = e :: below := List.head?_eq_some_iff.1 ht
    have hkeep : a.stack.filter (fun x => x ≠ e) = below := by
      rw [hbelow, List.filter_cons_of_neg (by simp)]
      refine List.filter_eq_self.2 fun x hx => ?_
      have hlt := (List.pairwise_cons.1 (hbelow ▸ h.stack_levels)).1 x hx
      simpa using fun hxe : x = e => lt_irrefl _ (hxe ▸ hlt)
    have hkept : a.waiting.filter (fun x => x ≠ e) = a.waiting := by
      refine List.filter_eq_self.2 fun x hx => ?_
      simpa using fun hxe : x = e => h.not_mem_stack hx (hxe ▸ hbelow ▸ List.mem_cons_self)
    have hroom : below.length < 4 := by
      have := h.stack_capacity
      rw [hbelow, List.length_cons] at this
      exact this
    have hremove : a.remove e.source e.tag =
        ({ a with stack := (admitFrom below a.waiting).1, waiting := (admitFrom below a.waiting).2.1 },
          (admitFrom below a.waiting).2.2) := by
      unfold Arbiter.remove
      rw [if_pos (htop.2 ht), hstack, hwaiting, hkeep, hkept]
    have horder := h.waiting_order
    rw [hremove]
    refine .inr ?_
    cases hw : a.waiting with
    | nil => exact .inl ⟨below, hbelow, by simp, by simp [admitFrom, ← hw]⟩
    | cons first rest =>
      rw [hw] at horder
      cases hb : betterThanTop first.level below with
      | false =>
        have hnot := mt (betterThanTop_iff _ _).2 (Bool.eq_false_iff.1 hb)
        push Not at hnot
        exact .inl ⟨below, hbelow, by simpa using hnot, by rw [admitFrom_of_not_better hb, ← hw]⟩
      | true =>
        exact .inr ⟨below, first, rest, hbelow, rfl, (betterThanTop_iff _ _).1 hb,
          by rw [admitFrom_of_better hroom horder hb]⟩
  · refine .inl ⟨ht, ?_⟩
    unfold Arbiter.remove
    rw [if_neg (mt htop.1 ht), hstack, hwaiting]

/-- Removing an entry keeps the laws of the lists and the count of arrivals, and its identity is in neither list then. -/
theorem ListLaws.remove (h : ListLaws a) (he : e ∈ a.stack ++ a.waiting) :
    ListLaws (a.remove e.source e.tag).1 ∧ (a.remove e.source e.tag).1.arrivals = a.arrivals ∧
      (a.remove e.source e.tag).2.length ≤ 1 ∧
      ∀ x ∈ (a.remove e.source e.tag).1.stack ++ (a.remove e.source e.tag).1.waiting, ¬sameIdentity e x := by
  have hother {x : Entry} (hx : x ∈ a.stack ++ a.waiting) (hne : x ≠ e) : ¬sameIdentity e x :=
    fun hs => hne (h.entry_unique he hx hs).symm
  rcases h.remove_cases he with ⟨ht, heq⟩ | ⟨below, hstack, hfirst, heq⟩ | ⟨below, first, rest, hstack, hwaiting, hbetter, heq⟩
  · rw [heq]
    have hs := List.filter_sublist (p := fun x => decide (x ≠ e)) (l := a.stack)
    have hw := List.filter_sublist (p := fun x => decide (x ≠ e)) (l := a.waiting)
    refine ⟨.of_distinct (hs.length_le.trans h.stack_capacity) (hw.length_le.trans h.waiting_capacity)
      (h.stack_levels.sublist hs) (h.waiting_order.sublist hw) (fun x hx => ?_)
      (h.distinct.of_subperm (hs.append hw).subperm), rfl, Nat.zero_le _, fun x hx => ?_⟩
    · obtain ⟨top, htop, hle⟩ := h.top_best x (hw.subset hx)
      obtain ⟨below, hbelow⟩ := List.head?_eq_some_iff.1 htop
      have hne : top ≠ e := fun hte => ht (hte ▸ htop)
      exact ⟨top, by simp [hbelow, hne], hle⟩
    · have hxe : x ≠ e := by
        rcases List.mem_append.1 hx with hx | hx <;> simpa using (List.mem_filter.1 hx).2
      exact hother ((hs.append hw).subset hx) hxe
  · rw [heq]
    have hlevels := hstack ▸ h.stack_levels
    have hcap := hstack ▸ h.stack_capacity
    have hd := hstack ▸ h.distinct
    refine ⟨.of_distinct ?_ h.waiting_capacity (List.pairwise_cons.1 hlevels).2 h.waiting_order (fun x hx => ?_)
      (hd.of_subperm (List.sublist_cons_self _ _).subperm), rfl, Nat.zero_le _, fun x hx => ?_⟩
    · exact (Nat.le_succ _).trans hcap
    · cases hw : a.waiting with
      | nil => simp [hw] at hx
      | cons first rest =>
        obtain ⟨top, htop, hle⟩ := hfirst first (by simp [hw])
        exact ⟨top, htop, hle.trans (level_le_of_first (hw ▸ h.waiting_order) (hw ▸ hx))⟩
    · exact (List.pairwise_cons.1 hd.identities).1 x hx
  · rw [heq]
    have hlevels := (List.pairwise_cons.1 (hstack ▸ h.stack_levels)).2
    have hcap := hstack ▸ h.stack_capacity
    have horder := hwaiting ▸ h.waiting_order
    have hwcap := hwaiting ▸ h.waiting_capacity
    have hd := hwaiting ▸ hstack ▸ h.distinct
    have hperm : ((first :: below) ++ rest).Perm (below ++ first :: rest) := List.perm_middle.symm
    have hsub : ((first :: below) ++ rest).Subperm (e :: below ++ first :: rest) :=
      hperm.subperm.trans (List.sublist_cons_self _ _).subperm
    refine ⟨.of_distinct hcap ((Nat.le_succ _).trans hwcap) (List.pairwise_cons.2 ⟨fun x hx => ?_, hlevels⟩)
      (List.pairwise_cons.1 horder).2
      (fun x hx => ⟨first, rfl, level_le_of_first horder (List.mem_cons_of_mem _ hx)⟩)
      (hd.of_subperm hsub), rfl, le_rfl, fun x hx => ?_⟩
    · obtain ⟨top, htop⟩ := Option.isSome_iff_exists.1 (List.isSome_head?.2 (List.ne_nil_of_mem hx))
      exact (hbetter top htop).trans_le (level_le_of_head hlevels htop hx)
    · exact (List.pairwise_cons.1 hd.identities).1 x (hperm.subset hx)

end

/-! ## Requests, releases, expiries -/

theorem Entry.update_keeps (e : Entry) (f : InterventionFields) :
    (e.update f).source = e.source ∧ (e.update f).tag = e.tag ∧ (e.update f).level = e.level ∧
      (e.update f).order = e.order := ⟨rfl, rfl, rfl, rfl⟩

/-- What changes of the entries neither identity nor level nor order keeps the laws of the lists. -/
theorem ListLaws.map {a : Arbiter} (h : ListLaws a) {g : Entry → Entry}
    (hg : ∀ e, (g e).source = e.source ∧ (g e).tag = e.tag ∧ (g e).level = e.level ∧ (g e).order = e.order) :
    ListLaws { a with stack := a.stack.map g, waiting := a.waiting.map g } := by
  have hsource e := (hg e).1
  have htag e := (hg e).2.1
  have hlevel e := (hg e).2.2.1
  have horder e := (hg e).2.2.2
  refine .of_distinct (by simpa using h.stack_capacity) (by simpa using h.waiting_capacity) ?_ ?_ ?_
    ⟨?_, ?_, ?_⟩
  · simpa only [List.pairwise_map, hlevel] using h.stack_levels
  · simpa only [List.pairwise_map, WaitingOrder, hlevel, horder] using h.waiting_order
  · intro x hx
    obtain ⟨y, hy, rfl⟩ := List.mem_map.1 hx
    obtain ⟨top, htop, hle⟩ := h.top_best y hy
    exact ⟨g top, by simp [Option.mem_def.1 htop], by simpa only [hlevel] using hle⟩
  · rw [← List.map_append]
    simpa only [List.pairwise_map, sameIdentity, hsource, htag] using h.identities
  · rw [← List.map_append]
    simpa only [List.pairwise_map, horder] using h.orders_differ
  · intro x hx
    rw [← List.map_append] at hx
    obtain ⟨y, hy, rfl⟩ := List.mem_map.1 hx
    exact horder y ▸ h.orders_past y hy

theorem updateEntries_keeps (src : Source) (f : InterventionFields) (e : Entry) :
    (if e.is src f.tag then e.update f else e).source = e.source ∧
    (if e.is src f.tag then e.update f else e).tag = e.tag ∧
    (if e.is src f.tag then e.update f else e).level = e.level ∧
    (if e.is src f.tag then e.update f else e).order = e.order := by
  split
  · exact e.update_keeps f
  · exact ⟨rfl, rfl, rfl, rfl⟩

/-- The entry formed from a request is new where no entry has its identity. -/
theorem Arbiter.entryOf_isNew {a : Arbiter} {src : Source} {f : InterventionFields}
    (h : ∀ x ∈ a.stack ++ a.waiting, ¬(x.source = src ∧ x.tag = f.tag)) (k : InterventionKind) (level : Nat) :
    IsNew a (a.entryOf src k level f) :=
  ⟨rfl, fun x hx hs => h x hx ⟨hs.1.symm, hs.2.symm⟩⟩

theorem Arbiter.not_held_of_find {a : Arbiter} {src : Source} {tag : Byte} (h : a.find src tag = none) :
    ∀ x ∈ a.stack ++ a.waiting, ¬(x.source = src ∧ x.tag = tag) := by
  have hnone {l : List Entry} (hl : findEntry l src tag = none) : ∀ x ∈ l, ¬(x.source = src ∧ x.tag = tag) :=
    fun x hx hid => List.find?_eq_none.1 hl x hx ((x.is_iff src tag).2 hid)
  unfold Arbiter.find at h
  split at h
  · cases h
  · next hs =>
    intro x hx
    rcases List.mem_append.1 hx with hx | hx
    · exact hnone hs x hx
    · exact hnone (Option.map_eq_none_iff.1 h) x hx

/-- A request of one of the four kinds keeps the laws of the lists. -/
theorem ListLaws.request {a : Arbiter} (h : ListLaws a) (src : Source) (k : InterventionKind) (level : Nat)
    (f : InterventionFields) : ListLaws (a.request src k level f).ia := by
  unfold Arbiter.request
  split
  · next hf => exact h.place (Arbiter.entryOf_isNew (Arbiter.not_held_of_find hf) k level)
  · next e place hf =>
    obtain ⟨he, rfl, htag⟩ := Arbiter.find_eq_some hf
    split
    · exact h.map (updateEntries_keeps e.source f)
    · rw [← htag]
      obtain ⟨hlaws, -, -, hgone⟩ := h.remove he
      exact hlaws.place (Arbiter.entryOf_isNew (fun x hx hid => hgone x hx ⟨hid.1.symm, htag.trans hid.2.symm⟩) k level)

theorem ListLaws.release {a : Arbiter} (h : ListLaws a) (src : Source) (tag : Byte) : ListLaws (a.release src tag).ia := by
  unfold Arbiter.release
  split
  · exact h
  · next hf =>
    obtain ⟨he, rfl, rfl⟩ := Arbiter.find_eq_some hf
    exact (h.remove he).1

theorem ListLaws.expire {a : Arbiter} (h : ListLaws a) (src : Source) (tag : Byte) : ListLaws (a.expire src tag).ia := by
  unfold Arbiter.expire
  split
  · exact h
  · next hf =>
    obtain ⟨he, rfl, rfl⟩ := Arbiter.find_eq_some hf
    exact (h.remove he).1

theorem ListLaws.act {a : Arbiter} (h : ListLaws a) (src : Source) (action : Byte) (f : InterventionFields) (level : Nat) :
    ListLaws (Arbiter.act src action f a level).ia := by
  unfold Arbiter.act
  split
  · exact h.release src f.tag
  · exact h.request src _ level f
  · exact h.request src _ level f
  · exact h.request src _ level f
  · exact h.request src _ level f
  · exact h

theorem listLaws_empty (arrivals : Nat) : ListLaws ⟨[], [], arrivals⟩ :=
  .of_distinct (by simp) (by simp) .nil .nil (by simp) ⟨.nil, .nil, by simp⟩

/-! ## Every step -/

/-- Everything an effect can make of the intervention lists: nothing, the lists of a reset, what an intervention frame in
STANDBY or ACTIVE or an expiry comes to, or the clearing of both. -/
theorem Effect.ia_cases {s t : State} (h : Effect s t) :
    t.ia = s.ia ∨ t.ia = .reset ∨
    ((s.osc.device = .standby ∨ s.osc.device = .active) ∧
      ∃ src action f, t.ia = (Arbiter.act src action f s.ia (s.levelOf src f)).ia) ∨
    (∃ src tag, t.ia = (s.ia.expire src tag).ia) ∨ t.ia = s.ia.clear.ia := by
  cases h with
  | reset kind => exact .inr (.inl rfl)
  | arbitrated src action f hd => exact .inr (.inr (.inl ⟨hd, src, action, f, s.arbitrate_ia _⟩))
  | refused => exact .inl (s.arbitrate_ia _)
  | expired src tag => exact .inr (.inr (.inr (.inl ⟨src, tag, s.arbitrate_ia _⟩)))
  | serviceEntered => exact .inr (.inr (.inr (.inr (State.arbitrate_ia _ _))))
  | initChecked hc =>
    obtain ⟨links, cu, eu, h⟩ := s.initChecked_frame
    exact .inl (by rw [h]; rfl)
  | passCompletes p hp =>
    obtain ⟨eu, h⟩ := s.completePass_frame p
    exact .inl (by rw [h])
  | wrongCounter =>
    unfold State.wrongCounter
    split <;> exact .inl rfl
  | serviceLeft =>
    unfold State.leaveService
    dsimp only
    split <;> exact .inl rfl
  | links h =>
    obtain ⟨links, cu, se, eu, rfl⟩ := h.frame
    exact .inl rfl
  | _ => exact .inl rfl

theorem Effect.listLaws {s t : State} (h : Effect s t) (hs : ListLaws s.ia) : ListLaws t.ia := by
  rcases h.ia_cases with h | h | ⟨-, src, action, f, h⟩ | ⟨src, tag, h⟩ | h <;> rw [h]
  · exact hs
  · exact listLaws_empty 0
  · exact hs.act src action f _
  · exact hs.expire src tag
  · exact listLaws_empty _

/-- Settles O56: no effect but those of `Effect.ia_cases` touches the lists, and placement, removal with admission, update
in place and clearing keep their laws. -/
theorem stepKeepsListLaws : Obligations.StepKeepsListLaws := by
  intro s t hs hstep
  exact step_keeps (Law := fun s => ListLaws s.ia) (fun _ _ h => h) Effect.listLaws hs hstep

end Sys2Proof.Machine
end

section
/-! The slots of the two links as moves: the results, handovers and openings that a link effect is made of, what each leaves
of a link, and the principle that what every move keeps a link effect keeps. -/

namespace Sys2Proof.Machine

/-! ## A predicate of every axle -/

theorem axle_eq_or_eq_other (y x : Axle) : y = x ∨ y = x.other := by cases y <;> cases x <;> simp [Axle.other]

/-- After one axle's value is set, a predicate of every axle asks for the new value and for the other axle. -/
theorem axles_forall_set {α : Type} {P : Axle → α → Prop} {p : Axles α} {x : Axle} {a : α} (h : ∀ y, P y (p.get y))
    (ha : P x a) : ∀ y, P y ((p.set x a).get y) := by
  intro y
  rcases axle_eq_or_eq_other y x with rfl | rfl
  · rwa [Axles.get_set]
  · rw [Axles.get_set_other]
    exact h _

/-! ## What a slot result leaves of a link -/

/-- The runs and error counters of a link are in their ranges (R120, R123). -/
def Link.Counted (l : Link) : Prop := (l.goodRun ≤ 255 ∧ l.badRun ≤ 255) ∧ l.nearErrors ≤ 255 ∧ l.farErrors ≤ 255

/-- The speed of a link is that of a two-byte signed field. -/
def Link.SpeedInRange (l : Link) : Prop := -32768 ≤ l.speed ∧ l.speed ≤ 32767

/-- What a link keeps whatever slots it opens and settles: its loopback, that it is OFF or not, and the ranges of its counts
and of its speed. -/
structure Link.Tracks (l l' : Link) : Prop where
  loop : l'.loop = l.loop
  off : l'.state = .off ↔ l.state = .off
  counted : l.Counted → l'.Counted
  speed : l.SpeedInRange → l'.SpeedInRange

theorem Link.Tracks.refl (l : Link) : l.Tracks l := ⟨rfl, .rfl, id, id⟩

theorem Link.Tracks.trans {a b c : Link} (h : a.Tracks b) (h' : b.Tracks c) : a.Tracks c :=
  ⟨h'.loop.trans h.loop, h'.off.trans h.off, h'.counted ∘ h.counted, h'.speed ∘ h.speed⟩

/-- What a link keeps between two openings: the same, that it has a slot or none, and its frame number. -/
structure Link.Follows (l l' : Link) : Prop where
  tracks : l.Tracks l'
  slot : l'.slot = .none ↔ l.slot = .none
  position : l'.position = l.position

theorem Link.Follows.refl (l : Link) : l.Follows l := ⟨.refl l, .rfl, rfl⟩

theorem Link.Follows.trans {a b c : Link} (h : a.Follows b) (h' : b.Follows c) : a.Follows c :=
  ⟨h.tracks.trans h'.tracks, h'.slot.trans h.slot, h'.position.trans h.position⟩

theorem goodSlot_off (l : Link) (bit : Bool) : (goodSlot l bit).state = .off ↔ l.state = .off := by
  unfold goodSlot
  dsimp only
  split
  · simp [*]
  · split <;> simp [*]
  · simp [*]
  · split <;> simp [*]
  · simp [*]

theorem badSlot_off (l : Link) : (badSlot l).state = .off ↔ l.state = .off := by
  unfold badSlot
  dsimp only
  split
  · simp [*]
  · simp [*]
  · simp [*]
  · split <;> simp [*]
  · simp [*]

theorem goodSlot_counted {l : Link} (h : l.Counted) (bit : Bool) : (goodSlot l bit).Counted := by
  obtain ⟨-, hn, hf⟩ := h
  exact ⟨⟨Nat.min_le_right _ _, Nat.zero_le _⟩, hn, hf⟩

theorem badSlot_counted {l : Link} (h : l.Counted) : (badSlot l).Counted :=
  ⟨⟨Nat.zero_le _, Nat.min_le_right _ _⟩, Nat.min_le_right _ _, h.2.2⟩

/-- What slot 7 settles is not among what a link keeps. -/
theorem Link.Follows.good {l : Link} (h : l.slot ≠ .none) (bit : Bool) (prev : Option Byte) (ack : Bool) :
    l.Follows { goodSlot l bit with prevWord := prev, ackVerified := ack } :=
  ⟨⟨rfl, goodSlot_off l bit, fun hc => goodSlot_counted hc bit, id⟩, iff_of_false SlotPhase.noConfusion h, rfl⟩

theorem Link.Follows.bad {l : Link} (h : l.slot ≠ .none) : l.Follows (badSlot l) :=
  ⟨⟨rfl, badSlot_off l, badSlot_counted, id⟩, iff_of_false SlotPhase.noConfusion h, rfl⟩

@[simp] theorem latched_links (s : State) (b : Nat) : (latched s b).links = s.links := rfl
@[simp] theorem latched_cu (s : State) (b : Nat) : (latched s b).cu = s.cu := rfl
@[simp] theorem latched_se (s : State) (b : Nat) : (latched s b).se = s.se := rfl
@[simp] theorem latchedIf_links (s : State) (o : Bool) (b : Nat) : (latchedIf s o b).links = s.links := by cases o <;> rfl
@[simp] theorem latchedIf_cu (s : State) (o : Bool) (b : Nat) : (latchedIf s o b).cu = s.cu := by cases o <;> rfl
@[simp] theorem latchedIf_se (s : State) (o : Bool) (b : Nat) : (latchedIf s o b).se = s.se := by cases o <;> rfl

theorem afterBadSlot_links (s : State) (x : Axle) :
    (afterBadSlot s x).links = s.links.set x (badSlot (s.links.get x)) := by simp [afterBadSlot]

theorem settledSuperframe_links (s : State) (x : Axle) : ∃ prev ack,
    (settledSuperframe s x).links = s.links.set x { s.links.get x with prevWord := prev, ackVerified := ack } := by
  simp only [settledSuperframe, latchedIf_links]
  exact ⟨_, _, rfl⟩

theorem afterGoodSlot_links (s : State) (x : Axle) (bit : Bool) : ∃ prev ack,
    (afterGoodSlot s x bit).links =
      s.links.set x { goodSlot (s.links.get x) bit with prevWord := prev, ackVerified := ack } := by
  unfold afterGoodSlot
  dsimp only
  split
  · obtain ⟨prev, ack, h⟩ :=
      settledSuperframe_links { s with links := s.links.set x (goodSlot (s.links.get x) bit) } x
    exact ⟨prev, ack, by rw [h]; simp⟩
  · exact ⟨(s.links.get x).prevWord, (s.links.get x).ackVerified, rfl⟩

/-- A slot result moves one link. -/
theorem State.slotResult_links (s : State) (x : Axle) (good bit : Bool) (h : (s.links.get x).slot ≠ .none) :
    ∃ l', (s.slotResult x good bit).links = s.links.set x l' ∧ (s.links.get x).Follows l' := by
  cases good with
  | false => exact ⟨_, by rw [State.slotResult_bad, afterBadSlot_links], .bad h⟩
  | true =>
    obtain ⟨prev, ack, hlinks⟩ := afterGoodSlot_links s x bit
    exact ⟨_, by rw [State.slotResult_good, hlinks], .good h bit prev ack⟩

/-! ## Handovers -/

theorem State.takeSample_links (s : State) (x : Axle) (v : Int) : (s.takeSample x v).links = s.links := by
  obtain ⟨se, eu, h⟩ := s.takeSample_frame x v
  rw [h]

theorem toInt_range (w : BitVec 16) : -32768 ≤ w.toInt ∧ w.toInt ≤ 32767 := by
  have hlo := BitVec.le_toInt w
  have hhi := BitVec.toInt_lt (x := w)
  norm_num at hlo hhi
  omega

theorem State.handReport_links (s : State) (x : Axle) (bytes : List Byte) :
    ∃ l', (s.handReport x (readReport bytes)).links = s.links.set x l' ∧ (s.links.get x).Follows l' := by
  have hfar (hc : (s.links.get x).Counted) : (if (readReport bytes).farError then min ((s.links.get x).farErrors + 1) 255
      else (s.links.get x).farErrors) ≤ 255 := by
    split
    · exact Nat.min_le_right _ _
    · exact hc.2.2
  unfold State.handReport
  dsimp only
  split
  · exact ⟨_, State.takeSample_links _ _ _, ⟨⟨rfl, .rfl, fun hc => ⟨hc.1, hc.2.1, hfar hc⟩, fun _ => toInt_range _⟩, .rfl, rfl⟩⟩
  · exact ⟨_, rfl, ⟨⟨rfl, .rfl, fun hc => ⟨hc.1, hc.2.1, hfar hc⟩, id⟩, .rfl, rfl⟩⟩

theorem Link.endVoid_follows {l : Link} (h : l.slot ≠ .none) : l.Follows l.endVoid := by
  unfold Link.endVoid Link.settle
  split
  · split <;> exact ⟨⟨rfl, .rfl, id, id⟩, iff_of_false SlotPhase.noConfusion h, rfl⟩
  · exact ⟨⟨rfl, .rfl, id, id⟩, iff_of_false SlotPhase.noConfusion h, rfl⟩

/-! ## Openings -/

/-- The opening of a slot before a near loopback takes the slot's own frame. -/
def State.opened (s : State) (x : Axle) (position : Nat) : State :=
  { s with
    links := s.links.set x
      ((s.links.get x).openSlot position s.osc.device s.du.demand.regenPermitted (s.ae.record.output.get x)) }

theorem State.openSlot_eq (s : State) (x : Axle) (position : Nat) (e : BitVec 32) :
    s.openSlot x position e = (s.opened x position).takeLooped x e := rfl

/-- What an opening keeps of a link, and the frame number and slot it sets. -/
theorem Link.openSlot_keeps (l : Link) (position : Nat) (d : DeviceState) (regen : Bool) (output : Int) :
    (l.openSlot position d regen output).loop = l.loop ∧ (l.openSlot position d regen output).state = l.state ∧
    (l.openSlot position d regen output).goodRun = l.goodRun ∧ (l.openSlot position d regen output).badRun = l.badRun ∧
    (l.openSlot position d regen output).nearErrors = l.nearErrors ∧
    (l.openSlot position d regen output).farErrors = l.farErrors ∧
    (l.openSlot position d regen output).speed = l.speed ∧
    (l.openSlot position d regen output).position = position ∧
    (l.openSlot position d regen output).slot = .waiting := by
  unfold Link.openSlot Link.beginSuperframe
  split <;> exact ⟨rfl, rfl, rfl, rfl, rfl, rfl, rfl, rfl, rfl⟩

theorem Link.openSlot_tracks (l : Link) (position : Nat) (d : DeviceState) (regen : Bool) (output : Int) :
    l.Tracks (l.openSlot position d regen output) := by
  obtain ⟨hloop, hstate, hgood, hbad, hnear, hfar, hspeed, -, -⟩ := l.openSlot_keeps position d regen output
  refine ⟨hloop, by rw [hstate], fun hc => ?_, fun hs => ?_⟩
  · simpa only [Link.Counted, hgood, hbad, hnear, hfar] using hc
  · simpa only [Link.SpeedInRange, hspeed] using hs

/-! ## Moves -/

/-- The moves that a link effect is made of, but for the openings: a slot result, the end of a slot that yields none, and
the handover of a good report frame's contents. -/
inductive LinkMove (s : State) : State → Prop
  | result (x : Axle) (good bit : Bool) (h : (s.links.get x).slot ≠ .none) : LinkMove s (s.slotResult x good bit)
  | voided (x : Axle) (h : (s.links.get x).slot ≠ .none) :
      LinkMove s { s with links := s.links.set x (s.links.get x).endVoid }
  | handed (x : Axle) (bytes : List Byte) : LinkMove s (s.handReport x (readReport bytes))

/-- One move or several, one after the other. -/
abbrev LinkMoves : State → State → Prop := Relation.ReflTransGen LinkMove

/-- A move moves one link. -/
theorem LinkMove.links {s t : State} (h : LinkMove s t) :
    ∃ x l', t.links = s.links.set x l' ∧ (s.links.get x).Follows l' := by
  cases h with
  | result x good bit h => exact ⟨x, s.slotResult_links x good bit h⟩
  | voided x h => exact ⟨x, _, rfl, Link.endVoid_follows h⟩
  | handed x bytes => exact ⟨x, s.handReport_links x bytes⟩

theorem LinkMove.follows {s t : State} (h : LinkMove s t) :
    ∀ x, (s.links.get x).Follows (t.links.get x) := by
  obtain ⟨x, l', hlinks, hl⟩ := h.links
  rw [hlinks]
  exact axles_forall_set (P := fun y l => (s.links.get y).Follows l) (fun y => .refl _) hl

theorem LinkMoves.follows {s t : State} (h : LinkMoves s t) : ∀ x, (s.links.get x).Follows (t.links.get x) := by
  induction h with
  | refl => exact fun x => .refl _
  | tail _ hmove ih => exact fun x => (ih x).trans (hmove.follows x)

theorem LinkMove.frame {s t : State} (h : LinkMove s t) :
    ∃ links cu se eu, t = { s with links := links, cu := cu, se := se, eu := eu } := by
  cases h with
  | result x good bit h =>
    obtain ⟨links, cu, eu, h⟩ := s.slotResult_frame x good bit
    exact ⟨links, cu, s.se, eu, h⟩
  | voided x h => exact ⟨_, s.cu, s.se, s.eu, rfl⟩
  | handed x bytes => exact s.handReport_frame x _

/-! ## The moves of each effect -/

theorem State.takeLooped_moves (s : State) (x : Axle) (e : BitVec 32) (h : (s.links.get x).slot ≠ .none) :
    LinkMoves s (s.takeLooped x e) := by
  unfold State.takeLooped
  dsimp only
  split
  · split <;> exact .single (.result x _ _ h)
  · exact .refl

theorem State.endSlot_moves (s : State) (x : Axle) : LinkMoves s (s.endSlot x) := by
  unfold State.endSlot
  split
  · next h => exact .single (.result x _ _ (by rw [h]; exact SlotPhase.noConfusion))
  · next h => exact .single (.voided x (by rw [h]; exact SlotPhase.noConfusion))
  · exact .refl
  · exact .refl

theorem State.opened_get (s : State) (x : Axle) (position : Nat) : (s.opened x position).links.get x =
    (s.links.get x).openSlot position s.osc.device s.du.demand.regenPermitted (s.ae.record.output.get x) :=
  Axles.get_set _ _ _

theorem State.opened_get_other (s : State) (x : Axle) (position : Nat) :
    (s.opened x position).links.get x.other = s.links.get x.other :=
  Axles.get_set_other _ _ _

theorem State.opened_slot (s : State) (x : Axle) (position : Nat) :
    ((s.opened x position).links.get x).slot = .waiting ∧ ((s.opened x position).links.get x).position = position := by
  obtain ⟨-, -, -, -, -, -, -, hposition, hslot⟩ := (s.links.get x).openSlot_keeps position s.osc.device
    s.du.demand.regenPermitted (s.ae.record.output.get x)
  rw [s.opened_get]
  exact ⟨hslot, hposition⟩

theorem State.opened_tracks (s : State) (x : Axle) (position : Nat) :
    ∀ y, (s.links.get y).Tracks ((s.opened x position).links.get y) :=
  axles_forall_set (P := fun y l => (s.links.get y).Tracks l) (fun _ => .refl _) (Link.openSlot_tracks _ _ _ _ _)

theorem State.openSlot_moves (s : State) (x : Axle) (position : Nat) (e : BitVec 32) :
    LinkMoves (s.opened x position) (s.openSlot x position e) := by
  rw [s.openSlot_eq]
  exact State.takeLooped_moves _ x e (by rw [(s.opened_slot x position).1]; exact SlotPhase.noConfusion)

/-- The next slot of a link: none where it has no slot; else the slot in progress ends, the next one opens, and the moves of
its own frame follow. -/
theorem State.nextSlot_cases (s : State) (x : Axle) (e : BitVec 32) :
    ((s.links.get x).slot = .none ∧ s.nextSlot x e = s) ∨
    ((s.links.get x).slot ≠ .none ∧ ∃ u, LinkMoves s u ∧
      LinkMoves (u.opened x (((s.links.get x).position + 1) % 8)) (s.nextSlot x e)) := by
  unfold State.nextSlot
  split
  · next h => exact .inl ⟨h, rfl⟩
  · next h => exact .inr ⟨h, _, s.endSlot_moves x, State.openSlot_moves _ x _ e⟩

theorem LinkEffect.moves {s t : State} (h : LinkEffect s t) :
    LinkMoves s t ∨ ∃ e1 e2, t = (s.nextSlot .front e1).nextSlot .rear e2 := by
  cases h with
  | reportGood x bytes hs =>
    have hslot : ((s.handReport x (readReport bytes)).links.get x).slot ≠ .none := by
      rw [Ne, ((LinkMove.handed x bytes).follows x).slot, hs]
      exact SlotPhase.noConfusion
    exact .inl (.tail (.single (.handed x bytes)) (.result x _ _ hslot))
  | reportBad x hs => exact .inl (.single (.result x _ _ (by rw [hs]; exact SlotPhase.noConfusion)))
  | slotEnded x => exact .inl (s.endSlot_moves x)
  | slotsOpened e1 e2 => exact .inr ⟨e1, e2, rfl⟩

/-! ## The principle -/

/-- A predicate of the state that every move and every opening of a link with a slot keeps. -/
structure LinkKept (P : State → Prop) : Prop where
  move : ∀ {s t}, LinkMove s t → P s → P t
  opened : ∀ s x position, (s.links.get x).slot ≠ .none → P s → P (s.opened x position)

section
variable {P : State → Prop}

theorem LinkKept.moves (hP : LinkKept P) {s t : State} (h : LinkMoves s t) (hs : P s) : P t := by
  induction h with
  | refl => exact hs
  | tail _ hmove ih => exact hP.move hmove ih

theorem LinkKept.nextSlot (hP : LinkKept P) {s : State} (hs : P s) (x : Axle) (e : BitVec 32) : P (s.nextSlot x e) := by
  rcases s.nextSlot_cases x e with ⟨-, h⟩ | ⟨hslot, u, hu, hnext⟩
  · rwa [h]
  · exact hP.moves hnext (hP.opened u x _ (mt (hu.follows x).slot.1 hslot) (hP.moves hu hs))

/-- What every move and every opening keeps, a link effect keeps. -/
theorem LinkKept.effect (hP : LinkKept P) {s t : State} (h : LinkEffect s t) (hs : P s) : P t := by
  rcases h.moves with h | ⟨e1, e2, rfl⟩
  · exact hP.moves h hs
  · exact hP.nextSlot (hP.nextSlot hs .front e1) .rear e2

end

/-! ## What an opening and a next slot leave of both links -/

/-- The opening of a slot on a link: the link has a slot of that number, and the other link is as it was but for its moves. -/
theorem State.openSlot_links (s : State) (x : Axle) (position : Nat) (e : BitVec 32) :
    (∀ y, (s.links.get y).Tracks ((s.openSlot x position e).links.get y)) ∧
    ((s.openSlot x position e).links.get x).slot ≠ .none ∧
    ((s.openSlot x position e).links.get x).position = position ∧
    (s.links.get x.other).Follows ((s.openSlot x position e).links.get x.other) := by
  have hmoves := (s.openSlot_moves x position e).follows
  obtain ⟨hslot, hposition⟩ := s.opened_slot x position
  refine ⟨fun y => (s.opened_tracks x position y).trans (hmoves y).tracks, ?_, (hmoves x).position.trans hposition, ?_⟩
  · rw [Ne, (hmoves x).slot, hslot]
    exact SlotPhase.noConfusion
  · rw [← s.opened_get_other x position]
    exact hmoves x.other

/-- The next slot of a link: one of the next number where it has a slot at all; the other link has no other slot. -/
theorem State.nextSlot_links (s : State) (x : Axle) (e : BitVec 32) :
    (∀ y, (s.links.get y).Tracks ((s.nextSlot x e).links.get y)) ∧
    (((s.nextSlot x e).links.get x).slot = .none ↔ (s.links.get x).slot = .none) ∧
    ((s.nextSlot x e).links.get x).position =
      (if (s.links.get x).slot = .none then (s.links.get x).position else ((s.links.get x).position + 1) % 8) ∧
    (s.links.get x.other).Follows ((s.nextSlot x e).links.get x.other) := by
  unfold State.nextSlot
  by_cases h : (s.links.get x).slot = .none
  · rw [if_pos h, if_pos h]
    exact ⟨fun y => .refl _, .rfl, rfl, .refl _⟩
  · rw [if_neg h, if_neg h]
    have hend := (s.endSlot_moves x).follows
    obtain ⟨htracks, hslot, hposition, hother⟩ := (s.endSlot x).openSlot_links x (((s.links.get x).position + 1) % 8) e
    exact ⟨fun y => (hend y).tracks.trans (htracks y), iff_of_false hslot h, hposition, (hend _).trans hother⟩

/-- Whatever a link effect does, each link keeps what it keeps through its slots, and whether it has one. -/
theorem LinkEffect.links {s t : State} (h : LinkEffect s t) (x : Axle) :
    (s.links.get x).Tracks (t.links.get x) ∧ ((t.links.get x).slot = .none ↔ (s.links.get x).slot = .none) := by
  rcases h.moves with h | ⟨e1, e2, rfl⟩
  · exact ⟨(h.follows x).tracks, (h.follows x).slot⟩
  · obtain ⟨htracks, hslot, -, hother⟩ := s.nextSlot_links .front e1
    obtain ⟨htracks', hslot', -, hother'⟩ := (s.nextSlot .front e1).nextSlot_links .rear e2
    refine ⟨(htracks x).trans (htracks' x), ?_⟩
    cases x with
    | front => exact hother'.slot.trans hslot
    | rear => exact hslot'.trans hother.slot

/-- Both links after the first slots have opened at the end of INIT. -/
theorem State.initChecked_links (s : State) (x : Axle) :
    let t := (s.leaveInit.openSlot .front 0 0#32).openSlot .rear 0 0#32
    (s.leaveInit.links.get x).Tracks (t.links.get x) ∧ (t.links.get x).slot ≠ .none ∧ (t.links.get x).position = 0 := by
  obtain ⟨htracks, hslot, hposition, -⟩ := s.leaveInit.openSlot_links .front 0 0#32
  obtain ⟨htracks', hslot', hposition', hother'⟩ := (s.leaveInit.openSlot .front 0 0#32).openSlot_links .rear 0 0#32
  refine ⟨(htracks x).trans (htracks' x), ?_⟩
  cases x with
  | front => exact ⟨mt hother'.slot.1 hslot, hother'.position.trans hposition⟩
  | rear => exact ⟨hslot', hposition'⟩

end Sys2Proof.Machine
end

section
/-! The attention line, the capacities of queues and counters, and the equal frame numbers of the two links: what each effect
makes of them, and O55. -/

namespace Sys2Proof.Machine

/-! ## The attention line (R152) -/

/-- ATTN_N stands as R152 drives it. -/
def EventUnit.Driven (u : EventUnit) : Prop := u.attnLow = (u.visible != 0#16)

theorem attentionLaw_iff (s : State) : AttentionLaw s ↔ s.eu.Driven := by
  have hvisible : (s.eu.visible != 0#16) = true ↔ s.eu.visible ≠ 0#16 := bne_iff_ne
  rw [AttentionLaw, EventUnit.Driven, ← hvisible]
  exact Bool.eq_iff_iff.symm

theorem State.raise_driven (s : State) (e : Event) : (s.raise e).eu.Driven := rfl

theorem State.raiseIf_driven {s : State} (h : s.eu.Driven) (onset : Bool) (e : Event) : (s.raiseIf onset e).eu.Driven := by
  cases onset
  · exact h
  · exact s.raise_driven e

theorem latchedIf_driven {s : State} (h : s.eu.Driven) (onset : Bool) (bit : Nat) : (latchedIf s onset bit).eu.Driven := by
  cases onset
  · exact h
  · rfl

theorem State.slotResult_driven {s : State} (h : s.eu.Driven) (x : Axle) (good bit : Bool) :
    (s.slotResult x good bit).eu.Driven := by
  cases good with
  | false =>
    rw [State.slotResult_bad]
    refine latchedIf_driven (latchedIf_driven ?_ _ _) _ _
    exact h
  | true =>
    rw [State.slotResult_good]
    unfold afterGoodSlot
    dsimp only
    split
    · refine latchedIf_driven ?_ _ _
      exact h
    · exact h

theorem State.takeSample_driven {s : State} (h : s.eu.Driven) (x : Axle) (v : Int) : (s.takeSample x v).eu.Driven := by
  unfold State.takeSample
  split
  · refine State.raiseIf_driven (State.raiseIf_driven ?_ _ _) _ _
    exact h
  · exact h

theorem State.handReport_driven {s : State} (h : s.eu.Driven) (x : Axle) (r : ReportFrame) :
    (s.handReport x r).eu.Driven := by
  unfold State.handReport
  dsimp only
  split
  · refine State.takeSample_driven ?_ x _
    exact h
  · exact h

theorem driven_kept : LinkKept (fun s => s.eu.Driven) where
  move h hs := by
    cases h with
    | result x good bit => exact State.slotResult_driven hs x good bit
    | voided => exact hs
    | handed x bytes => exact State.handReport_driven hs x _
  opened _ _ _ _ hs := hs

theorem Effect.driven {s t : State} (h : Effect s t) (hs : s.eu.Driven) : t.eu.Driven := by
  cases h with
  | reset => exact (by decide : EventUnit.reset.attnLow = (EventUnit.reset.visible != 0#16))
  | frameRejected | demandStale | demandLost | referenceStale | limitsStale | maskSet | acknowledged => exact rfl
  | initChecked =>
    have hopened (u : State) (x : Axle) (hu : u.eu.Driven) : (u.openSlot x 0 0#32).eu.Driven :=
      driven_kept.moves (u.openSlot_moves x 0 0#32) hu
    exact hopened _ .rear (hopened _ .front hs)
  | passCompletes =>
    refine State.raiseIf_driven (State.raiseIf_driven ?_ _ _) _ _
    exact hs
  | wrongCounter =>
    unfold State.wrongCounter
    split
    · rfl
    · exact hs
  | arbitrated | refused | expired | serviceEntered =>
    refine State.raiseIf_driven ?_ _ _
    exact hs
  | serviceLeft =>
    unfold State.leaveService
    dsimp only
    split <;> exact hs
  | links h => exact driven_kept.effect h hs
  | _ => exact hs

/-! ## The answer queue and the transmit error count (R143, R146) -/

theorem dropOldestAnswer_length (headOnBus : Bool) {l : List Answer} (h : 2 ≤ l.length) :
    (dropOldestAnswer headOnBus l).length = l.length - 1 := by
  cases l with
  | nil => rfl
  | cons a rest =>
    cases headOnBus with
    | false => rfl
    | true =>
      simp only [List.length_cons] at h
      simp only [dropOldestAnswer, if_true, List.length_cons, List.length_tail]
      omega

/-- An answer more, as long as there is room; a queue of eight stays one of eight. -/
theorem Port.addAnswer_length {p : Port} (h : p.answers.length ≤ 8) (a : Answer) :
    (p.addAnswer a).answers.length = min 8 (p.answers.length + 1) := by
  unfold Port.addAnswer
  split
  · next hroom =>
    have : p.answers.length < 8 := hroom
    simp only [List.length_append, List.length_singleton]
    omega
  · next hfull =>
    have : ¬p.answers.length < 8 := hfull
    simp only [List.length_append, List.length_singleton]
    rw [dropOldestAnswer_length _ (by omega)]
    omega

theorem Port.addAnswers_length {p : Port} (h : p.answers.length ≤ 8) (l : List Answer) :
    (p.addAnswers l).answers.length = min 8 (p.answers.length + l.length) := by
  induction l generalizing p with
  | nil => exact (min_eq_right h).symm
  | cons a l ih =>
    have hone := p.addAnswer_length h a
    have hrest := ih (p := p.addAnswer a) (by omega)
    rw [Port.addAnswers, List.foldl_cons]
    refine hrest.trans ?_
    rw [hone, List.length_cons]
    omega

/-- The port's queue and count are within their ranges. -/
structure PortCapacities (p : Port) : Prop where
  answers : p.answers.length ≤ 8
  transmitErrors : p.errorCount ≤ 255

theorem PortCapacities.addAnswers {p : Port} (h : PortCapacities p) (l : List Answer) : PortCapacities (p.addAnswers l) :=
  ⟨by rw [Port.addAnswers_length h.answers]; exact min_le_left _ _, by rw [Port.addAnswers_errorCount]; exact h.transmitErrors⟩

theorem Effect.portCapacities {s t : State} (h : Effect s t) (hs : PortCapacities s.cp) : PortCapacities t.cp := by
  cases h with
  | reset => exact ⟨Nat.zero_le _, Nat.zero_le _⟩
  | port p ha he => exact ⟨ha.trans hs.answers, he hs.transmitErrors⟩
  | responseSent p ha he => exact ⟨ha.trans hs.answers, he.trans hs.transmitErrors⟩
  | arbitrated | refused | expired =>
    rw [State.arbitrate_cp]
    exact hs.addAnswers _
  | serviceEntered =>
    unfold State.enterService
    rw [State.respond_cp, State.arbitrate_cp]
    exact hs.addAnswers _
  | initChecked =>
    obtain ⟨links, cu, eu, h⟩ := s.initChecked_frame
    rw [h]
    exact ⟨hs.answers, hs.transmitErrors⟩
  | passCompletes p =>
    obtain ⟨eu, h⟩ := s.completePass_frame p
    rwa [h]
  | wrongCounter =>
    unfold State.wrongCounter
    split <;> exact hs
  | serviceLeft =>
    unfold State.leaveService
    dsimp only
    split <;> exact ⟨hs.answers, hs.transmitErrors⟩
  | links h =>
    obtain ⟨links, cu, se, eu, rfl⟩ := h.frame
    exact hs
  | _ => exact ⟨hs.answers, hs.transmitErrors⟩

/-! ## The service queues (R154) -/

/-- The service queues are within their capacities, with the reserved place of a request in execution, and a request in
execution is in its queue. -/
structure ServiceCapacities (u : ServiceUnit) : Prop where
  requests : u.queue.length ≤ 4
  responses : u.responses.length + (if u.operation.isSome then 1 else 0) ≤ 4
  executing : u.operation.isSome = true → u.queue ≠ []

/-- The response queue has a place for a request that begins or is in execution. -/
def HasPlace (u : ServiceUnit) : Prop := (u.operation = none ∧ u.responses.length < 4) ∨ u.operation.isSome = true

theorem Begins.hasPlace {s : State} {code : Byte} {r : Request} (h : Begins s code r) : HasPlace s.su := .inl ⟨h.idle, h.room⟩

theorem hasPlace_of_executing {u : ServiceUnit} {op : Operation} (h : u.operation = some op) : HasPlace u :=
  .inr (h ▸ rfl)

section
variable {u : ServiceUnit}

theorem ServiceCapacities.complete (h : ServiceCapacities u) (hp : HasPlace u) (r : Request) (v : ServiceResult)
    (p : List Byte) (pending : Bool) : ServiceCapacities { u.complete r v p with restartPending := pending } := by
  refine ⟨?_, ?_, fun hop => nomatch hop⟩
  · simp only [ServiceUnit.complete_queue, List.length_tail]
    exact (Nat.sub_le _ _).trans h.requests
  · have hresponses := h.responses
    simp only [ServiceUnit.complete_responses, ServiceUnit.complete_operation, List.length_append, List.length_singleton]
    rcases hp with ⟨-, hroom⟩ | hop
    · exact hroom
    · rwa [if_pos hop] at hresponses

theorem ServiceCapacities.execute (h : ServiceCapacities u) (hroom : u.responses.length < 4) {r : Request}
    (hr : u.queue.head? = some r) (op : Operation) : ServiceCapacities { u with operation := some op } := by
  refine ⟨h.requests, hroom, fun _ hempty => ?_⟩
  have hempty : u.queue = [] := hempty
  simp [hempty] at hr

theorem ServiceCapacities.arrive (h : ServiceCapacities u) (r : Request) : ServiceCapacities (u.arrive r) := by
  unfold ServiceUnit.arrive
  split
  · next hroom =>
    refine ⟨?_, h.responses, fun _ => by simp⟩
    rw [List.length_append, List.length_singleton]
    exact hroom
  · split
    · next hroom =>
      refine ⟨h.requests, ?_, h.executing⟩
      rw [ServiceUnit.room, show serviceCapacity = 4 from rfl] at hroom
      simp only [List.length_append, List.length_singleton]
      omega
    · exact h

theorem ServiceCapacities.sent (h : ServiceCapacities u) :
    ServiceCapacities { u with responses := u.responses.tail } := by
  refine ⟨h.requests, ?_, h.executing⟩
  have := h.responses
  simp only [List.length_tail]
  omega

end

theorem Effect.serviceCapacities {s t : State} (h : Effect s t) (hs : ServiceCapacities s.su) :
    ServiceCapacities t.su := by
  cases h with
  | reset => exact ⟨Nat.zero_le _, Nat.zero_le _, fun h => nomatch h⟩
  | responseSent => exact hs.sent
  | requestArrives r => exact hs.arrive r
  | answers hb | restartAnswered hb | entryRead hb | countersRead hb | loopbackSet hb => exact hs.complete hb.hasPlace _ _ _ _
  | serviceEntered hb =>
    unfold State.enterService
    rw [State.respond_su, State.arbitrate_su]
    exact hs.complete hb.hasPlace _ _ _ _
  | executes hb | bulkEraseBegins hb => exact hs.execute hb.room hb.head _
  | serviceLeft ho =>
    unfold State.leaveService
    dsimp only
    split <;> exact hs.complete (hasPlace_of_executing ho) _ _ _ _
  | written ho | erased ho | bulkErased ho | locked ho => exact hs.complete (hasPlace_of_executing ho) _ _ _ _
  | arbitrated | refused | expired => rwa [State.arbitrate_su]
  | initChecked =>
    obtain ⟨links, cu, eu, h⟩ := s.initChecked_frame
    rwa [h]
  | passCompletes p =>
    obtain ⟨eu, h⟩ := s.completePass_frame p
    rwa [h]
  | wrongCounter =>
    unfold State.wrongCounter
    split <;> exact hs
  | links h =>
    obtain ⟨links, cu, se, eu, rfl⟩ := h.frame
    exact hs
  | _ => exact hs

/-! ## The counts of the links (R120, R123) -/

theorem Link.transition_counted {l : Link} (h : l.Counted) (kind : LoopState) : (l.transition kind).Counted :=
  ⟨⟨Nat.zero_le _, Nat.zero_le _⟩, h.2⟩

theorem Link.openLoop_counted {l : Link} (h : l.Counted) : l.openLoop.Counted := by
  unfold Link.openLoop
  split
  · exact h
  · exact Link.transition_counted h _

/-- Everything an effect can make of the links: nothing, links of a reset, both after the first slots have opened, one with its
error counters cleared or its loopback changed, both with their loopbacks opened, or what slots and report frames make of
them. -/
theorem Effect.links_cases {s t : State} (h : Effect s t) :
    t.links = s.links ∨ t.links = ⟨.reset, .reset⟩ ∨
    (s.osc.checking = true ∧ t = (s.leaveInit.openSlot .front 0 0#32).openSlot .rear 0 0#32) ∨
    (∃ x, t.links = s.links.set x { s.links.get x with nearErrors := 0, farErrors := 0 }) ∨
    (s.osc.device = .service ∧ ∃ x kind, t.links = s.links.set x ((s.links.get x).transition kind)) ∨
    (s.su.operation = some .imageCheck ∧ t.links = ⟨s.links.front.openLoop, s.links.rear.openLoop⟩) ∨
    LinkEffect s t := by
  cases h with
  | reset => exact .inr (.inl rfl)
  | initChecked hc => exact .inr (.inr (.inl ⟨hc, rfl⟩))
  | countersRead hb x => exact .inr (.inr (.inr (.inl ⟨x, rfl⟩)))
  | loopbackSet hb hd x kind => exact .inr (.inr (.inr (.inr (.inl ⟨hd, x, kind, rfl⟩))))
  | serviceLeft ho =>
    refine .inr (.inr (.inr (.inr (.inr (.inl ⟨ho, ?_⟩)))))
    unfold State.leaveService
    dsimp only
    split <;> rfl
  | links h => exact .inr (.inr (.inr (.inr (.inr (.inr h)))))
  | arbitrated | refused | expired => exact .inl (s.arbitrate_links _)
  | serviceEntered => exact .inl (State.arbitrate_links _ _)
  | passCompletes p =>
    obtain ⟨eu, h⟩ := s.completePass_frame p
    exact .inl (by rw [h])
  | wrongCounter =>
    unfold State.wrongCounter
    split <;> exact .inl rfl
  | _ => exact .inl rfl

theorem Link.reset_counted : Link.reset.Counted := ⟨⟨Nat.zero_le _, Nat.zero_le _⟩, Nat.zero_le _, Nat.zero_le _⟩

theorem State.leaveInit_get (s : State) (x : Axle) : s.leaveInit.links.get x = (s.links.get x).acquire := by cases x <;> rfl

theorem Effect.counted {s t : State} (h : Effect s t) (hs : ∀ x, (s.links.get x).Counted) :
    ∀ x, (t.links.get x).Counted := by
  rcases h.links_cases with h | h | ⟨-, rfl⟩ | ⟨x, h⟩ | ⟨-, x, kind, h⟩ | ⟨-, h⟩ | h
  · rwa [h]
  · rw [h]
    intro x
    cases x <;> exact Link.reset_counted
  · intro x
    refine (s.initChecked_links x).1.counted ?_
    rw [s.leaveInit_get]
    exact ⟨⟨Nat.zero_le _, Nat.zero_le _⟩, (hs x).2⟩
  · rw [h]
    exact axles_forall_set (P := fun _ (l : Link) => l.Counted) hs ⟨(hs x).1, Nat.zero_le _, Nat.zero_le _⟩
  · rw [h]
    exact axles_forall_set (P := fun _ (l : Link) => l.Counted) hs (Link.transition_counted (hs x) kind)
  · rw [h]
    intro x
    cases x
    · exact Link.openLoop_counted (hs .front)
    · exact Link.openLoop_counted (hs .rear)
  · exact fun x => (h.links x).1.counted (hs x)

/-! ## The frame numbers (R115) -/

theorem SlotPhase.voided_eq_none (p : SlotPhase) : p.voided = .none ↔ p = .none := by
  cases p <;> simp [SlotPhase.voided]

theorem Link.transition_slot (l : Link) (kind : LoopState) : (l.transition kind).slot = .none ↔ l.slot = .none :=
  l.slot.voided_eq_none

theorem Link.openLoop_slot (l : Link) : l.openLoop.position = l.position ∧ (l.openLoop.slot = .none ↔ l.slot = .none) := by
  unfold Link.openLoop
  split
  · exact ⟨rfl, .rfl⟩
  · exact ⟨rfl, l.transition_slot _⟩

/-- The frame numbers agree where each link has the number it had, and a slot exactly where it had one. -/
theorem SlotsTogether.of_same {s t : State} (hs : SlotsTogether s)
    (h : ∀ x, (t.links.get x).position = (s.links.get x).position ∧
      ((t.links.get x).slot = .none ↔ (s.links.get x).slot = .none)) : SlotsTogether t := by
  obtain ⟨heq, hlt, hslot⟩ := hs
  obtain ⟨hpf, hsf⟩ := h .front
  obtain ⟨hpr, hsr⟩ := h .rear
  exact ⟨hpf.trans (heq.trans hpr.symm), hpf.trans_lt hlt, hsf.trans (hslot.trans hsr.symm)⟩

/-- Both links go on to the next slot, or neither has one. -/
theorem SlotsTogether.nextSlots {s : State} (hs : SlotsTogether s) (e1 e2 : BitVec 32) :
    SlotsTogether ((s.nextSlot .front e1).nextSlot .rear e2) := by
  obtain ⟨heq, hlt, hslot⟩ := hs
  obtain ⟨-, hsf, hpf, hr⟩ := s.nextSlot_links .front e1
  obtain ⟨-, hsr, hpr, hf⟩ := (s.nextSlot .front e1).nextSlot_links .rear e2
  have hfront : ((s.nextSlot .front e1).nextSlot .rear e2).links.front.position = _ := hf.position.trans hpf
  have hrear : ((s.nextSlot .front e1).nextSlot .rear e2).links.rear.position = _ := hpr
  have hrearslot : (s.nextSlot .front e1).links.rear.slot = .none ↔ s.links.rear.slot = .none := hr.slot
  have hrearpos : (s.nextSlot .front e1).links.rear.position = s.links.rear.position := hr.position
  have hphase : ((s.nextSlot .front e1).nextSlot .rear e2).links.front.slot = .none ↔
      ((s.nextSlot .front e1).nextSlot .rear e2).links.rear.slot = .none :=
    (hf.slot.trans hsf).trans (hslot.trans (hrearslot.symm.trans hsr.symm))
  refine ⟨?_, ?_, hphase⟩
  · rw [hfront, hrear]
    simp only [Axles.get, hrearslot, hrearpos, hslot, heq]
  · rw [hfront]
    by_cases hnone : (s.links.get .front).slot = .none
    · rw [if_pos hnone]
      exact hlt
    · rw [if_neg hnone]
      exact Nat.mod_lt _ (by decide)

theorem Effect.slotsTogether {s t : State} (h : Effect s t) (hs : SlotsTogether s) : SlotsTogether t := by
  rcases h.links_cases with h | h | ⟨-, rfl⟩ | ⟨x, h⟩ | ⟨-, x, kind, h⟩ | ⟨-, h⟩ | h
  · exact hs.of_same fun x => by rw [h]; exact ⟨rfl, .rfl⟩
  · unfold SlotsTogether
    rw [h]
    decide
  · obtain ⟨-, hsf, hpf⟩ := s.initChecked_links .front
    obtain ⟨-, hsr, hpr⟩ := s.initChecked_links .rear
    exact ⟨hpf.trans hpr.symm, hpf.trans_lt (by decide), iff_of_false hsf hsr⟩
  · refine hs.of_same ?_
    rw [h]
    exact axles_forall_set (P := fun y (l : Link) => l.position = (s.links.get y).position ∧
      (l.slot = .none ↔ (s.links.get y).slot = .none)) (fun _ => ⟨rfl, .rfl⟩) ⟨rfl, .rfl⟩
  · refine hs.of_same ?_
    rw [h]
    exact axles_forall_set (P := fun y (l : Link) => l.position = (s.links.get y).position ∧
      (l.slot = .none ↔ (s.links.get y).slot = .none)) (fun _ => ⟨rfl, .rfl⟩) ⟨rfl, Link.transition_slot _ kind⟩
  · refine hs.of_same ?_
    rw [h]
    intro x
    cases x
    · exact s.links.front.openLoop_slot
    · exact s.links.rear.openLoop_slot
  · rcases h.moves with h | ⟨e1, e2, rfl⟩
    · exact hs.of_same fun x => ⟨(h.follows x).position, (h.follows x).slot⟩
    · exact hs.nextSlots e1 e2

/-! ## Every step -/

theorem capacityLaws_iff (s : State) :
    CapacityLaws s ↔ PortCapacities s.cp ∧ ServiceCapacities s.su ∧ ∀ x, (s.links.get x).Counted :=
  ⟨fun h => ⟨⟨h.answers, h.transmitErrors⟩, ⟨h.requests, h.responses, h.executing⟩, fun x => ⟨h.runs x, h.errors x⟩⟩,
    fun ⟨hp, hu, hl⟩ => ⟨hp.answers, hu.requests, hu.responses, hu.executing, hp.transmitErrors, fun x => (hl x).1,
      fun x => (hl x).2⟩⟩

theorem Effect.capacityLaws {s t : State} (h : Effect s t) (hs : CapacityLaws s) : CapacityLaws t := by
  rw [capacityLaws_iff] at hs ⊢
  obtain ⟨hp, hu, hl⟩ := hs
  exact ⟨h.portCapacities hp, h.serviceCapacities hu, h.counted hl⟩

theorem Effect.attentionLaw {s t : State} (h : Effect s t) (hs : AttentionLaw s) : AttentionLaw t := by
  rw [attentionLaw_iff] at hs ⊢
  exact h.driven hs

/-- Settles O55: each of the three laws is kept by every effect, the capacities block by block. -/
theorem stepKeepsAttentionCapacitiesAndSlots : Obligations.StepKeepsAttentionCapacitiesAndSlots := by
  refine ⟨fun s t => step_keeps (fun _ _ h => h) Effect.attentionLaw, fun s t => step_keeps (fun s rest h => ?_)
    Effect.capacityLaws, fun s t => step_keeps (fun _ _ h => h) Effect.slotsTogether⟩
  rw [capacityLaws_iff] at h ⊢
  exact h

end Sys2Proof.Machine
end

section
/-! The Calibration Store: what a wiped sector reads as, what each effect makes of the store and of the operation in
execution, and O57, O5. -/

namespace Sys2Proof.Machine

/-! ## Wiping a sector -/

/-- A sector loses its content and takes a state: what damage and the end of an erase have in common. -/
def Store.wipe (c : Store) (k : Nat) (st : SectorState) : Store :=
  { c with cells := eraseCells c.cells k, sectors := c.sectors.set k st }

theorem Store.damage_eq_wipe (c : Store) (k : Nat) : c.damage k = c.wipe k .damaged := rfl

theorem Store.endErase_eq_wipe (c : Store) (k : Nat) (ok : Bool) :
    c.endErase k ok = c.wipe k (if ok then .erased else .damaged) := rfl

/-- What every byte of a wiped sector reads as. -/
def wipedByte (st : SectorState) : Byte := if st = .damaged then 0#8 else erasedByte

theorem Store.wipe_get {c : Store} {j k : Nat} (hj : j ≤ 3) (hk : k ≤ 3) (st : SectorState) :
    (c.wipe k st).sectors.get j = if j = k then st else c.sectors.get j := by
  split
  · next h => rw [h]; exact Sectors.get_set _ _ _
  · next h => exact Sectors.get_set_ne _ _ hj hk h

theorem Store.wipe_byte {c : Store} {j k off : Nat} (hj : j ≤ 3) (hk : k ≤ 3) (ho : off < 256) (st : SectorState) :
    (c.wipe k st).byte j off = if j = k then wipedByte st else c.byte j off := by
  have haddress : storeAddress j off / 256 = j := by
    unfold storeAddress
    omega
  unfold Store.byte
  rw [Store.wipe_get hj hk]
  split
  · next h =>
    have hcell : readCell (c.wipe k st).cells (storeAddress j off) = erasedByte := by
      refine (readCell_eraseCells c.cells k _).trans (if_pos ?_)
      rw [haddress, h]
    rw [hcell]
    rfl
  · next h =>
    have hcell : readCell (c.wipe k st).cells (storeAddress j off) = readCell c.cells (storeAddress j off) := by
      refine (readCell_eraseCells c.cells k _).trans (if_neg ?_)
      rw [haddress]
      exact h
    rw [hcell]

/-- All four sectors wiped, each with a state of its own. -/
def Store.wipeAll (c : Store) (st : Nat → SectorState) : Store :=
  (((c.wipe 0 (st 0)).wipe 1 (st 1)).wipe 2 (st 2)).wipe 3 (st 3)

theorem Store.wipeAll_get (c : Store) (st : Nat → SectorState) {k : Nat} (hk : k ≤ 3) :
    (c.wipeAll st).sectors.get k = st k := by
  unfold Store.wipeAll
  interval_cases k <;> simp [Store.wipe_get]

theorem Store.wipeAll_byte (c : Store) (st : Nat → SectorState) {k off : Nat} (hk : k ≤ 3) (ho : off < 256) :
    (c.wipeAll st).byte k off = wipedByte (st k) := by
  unfold Store.wipeAll
  interval_cases k <;> simp [Store.wipe_byte, ho]

theorem Store.endBulkErase_eq_wipeAll (c : Store) (e0 e1 e2 e3 : Bool) : c.endBulkErase e0 e1 e2 e3 =
    c.wipeAll (fun k => if [e0, e1, e2, e3].getD k false then .erased else .damaged) := rfl

/-! ## The abandoned operation (R163) -/

theorem damages_wipe (c : Store) {k : Nat} (hk : k ≤ 3) : Damages c (c.damage k) (· = k) := by
  rw [c.damage_eq_wipe]
  refine ⟨fun j hj hjk => ⟨?_, fun off ho => ?_⟩, fun j hj hjk => ⟨?_, fun off ho => ?_⟩⟩
  · rw [Store.wipe_get hj hk, if_pos hjk]
  · rw [Store.wipe_byte hj hk ho, if_pos hjk]
    rfl
  · rw [Store.wipe_get hj hk, if_neg hjk]
  · rw [Store.wipe_byte hj hk ho, if_neg hjk]

theorem damages_wipeAll (c : Store) : Damages c (c.abandon (some .bulkErase)) (fun _ => True) :=
  ⟨fun _ hk _ => ⟨c.wipeAll_get (fun _ => .damaged) hk, fun _ ho => c.wipeAll_byte (fun _ => .damaged) hk ho⟩,
    fun _ _ h => absurd trivial h⟩

/-- Settles O5: the store after either reset is what `Store.abandon` makes of the operation in execution. -/
theorem resetDamagesAbandonedOperation : Obligations.ResetDamagesAbandonedOperation := by
  intro s c hc
  obtain ⟨t, hexec, hstore⟩ : ∃ t, exec c s = .next t ∧ t.store = s.store.abandon s.su.operation := by
    rcases hc with ⟨rfl, hhold⟩ | ⟨rfl, hhold⟩
    · exact ⟨s.enterReset .power, congrArg Host.Outcome.next (if_neg (by simp [OperatingState.holds, hhold])), rfl⟩
    · exact ⟨s.enterReset .pin, congrArg Host.Outcome.next (if_neg (by simp [OperatingState.holds, hhold])), rfl⟩
  refine ⟨t, hexec, fun sector offset data hk ho => ?_, fun sector hk ho => ?_, fun ho => ?_, fun ho => ?_⟩
  · rw [hstore, ho]
    exact ⟨damages_wipe s.store hk, rfl⟩
  · rw [hstore, ho]
    exact ⟨damages_wipe s.store hk, rfl⟩
  · rw [hstore, ho]
    exact ⟨damages_wipeAll s.store, rfl⟩
  · rcases ho with ho | ho | ho <;> rw [hstore, ho] <;> rfl

/-! ## Blank sectors -/

/-- A sector that is not PROGRAMMED lists no cell (section 10.2). -/
def Store.Blank (c : Store) : Prop :=
  ∀ k ≤ 3, c.sectors.get k ≠ .programmed → ∀ cell ∈ c.cells, cell.1 / 256 ≠ k

theorem Store.Blank.wipe {c : Store} (h : c.Blank) {k : Nat} (hk : k ≤ 3) (st : SectorState) : (c.wipe k st).Blank := by
  intro j hj hst cell hcell
  rw [Store.wipe_get hj hk] at hst
  by_cases hjk : j = k
  · rw [hjk]
    exact eraseCells_blank c.cells k cell hcell
  · rw [if_neg hjk] at hst
    exact h j hj hst cell (List.mem_filter.1 hcell).1

theorem Store.Blank.wipeAll {c : Store} (h : c.Blank) (st : Nat → SectorState) : (c.wipeAll st).Blank :=
  (((h.wipe (by decide) _).wipe (by decide) _).wipe (by decide) _).wipe (by decide) _

/-- The cells listed after bytes are written are those listed before and those of the bytes' own addresses. -/
theorem mem_writeCells {l : List Host.Cell} {a : Nat} {data : List Byte} {c : Host.Cell} (h : c ∈ writeCells l a data) :
    (a ≤ c.1 ∧ c.1 < a + data.length) ∨ c ∈ l := by
  induction data generalizing l a with
  | nil => exact .inr h
  | cons b rest ih =>
    rw [List.length_cons]
    rcases ih h with h | h
    · exact .inl (by omega)
    · rcases mem_writeCell h with ⟨rfl, -⟩ | h
      · exact .inl (by dsimp only; omega)
      · exact .inr h

theorem Store.endWrite_get {c : Store} {j k : Nat} (hj : j ≤ 3) (hk : k ≤ 3) (offset : Nat) (data : List Byte) :
    (c.endWrite k offset data).sectors.get j = if j = k then .programmed else c.sectors.get j := by
  split
  · next h => rw [h]; exact Sectors.get_set _ _ _
  · next h => exact Sectors.get_set_ne _ _ hj hk h

theorem Store.Blank.write {c : Store} (h : c.Blank) {k offset : Nat} {data : List Byte} (hk : k ≤ 3)
    (hend : offset + data.length ≤ 256) : (c.endWrite k offset data).Blank := by
  intro j hj hst cell hcell
  rw [Store.endWrite_get hj hk] at hst
  have hjk : j ≠ k := fun hjk => hst (if_pos hjk)
  rw [if_neg hjk] at hst
  rcases mem_writeCells hcell with hnew | hold
  · unfold storeAddress at hnew
    omega
  · exact h j hj hst cell hold

/-! ## The laws of the store and the operation in execution -/

/-- The laws of the store, as they speak of the store and the operation in execution alone. -/
structure StoreAndOperation (c : Store) (op : Option Operation) : Prop where
  canonical : Memory.wf c.cells = true
  blank : c.Blank
  operation : OperationLaw c op

theorem storeLaws_iff (s : State) : StoreLaws s ↔ StoreAndOperation s.store s.su.operation :=
  ⟨fun h => ⟨h.canonical, h.blank, h.operation⟩, fun h => ⟨h.canonical, h.blank, h.operation⟩⟩

section
variable {c : Store} {op : Option Operation}

theorem StoreAndOperation.wipe (h : StoreAndOperation c op) {k : Nat} (hk : k ≤ 3) (st : SectorState) :
    StoreAndOperation (c.wipe k st) none :=
  ⟨Memory.wf_eraseCells k h.canonical, h.blank.wipe hk st, trivial⟩

theorem StoreAndOperation.wipeAll (h : StoreAndOperation c op) (st : Nat → SectorState) :
    StoreAndOperation (c.wipeAll st) none :=
  (((h.wipe (by decide) _).wipe (by decide) _).wipe (by decide) _).wipe (by decide) _

theorem StoreAndOperation.withLock (h : StoreAndOperation c op) (b : Bool) :
    StoreAndOperation { c with locked := b } none := ⟨h.canonical, h.blank, trivial⟩

theorem StoreAndOperation.write {k offset : Nat} {data : List Byte}
    (h : StoreAndOperation c (some (.write k offset data))) : StoreAndOperation (c.endWrite k offset data) none := by
  obtain ⟨hk, hend, -⟩ := h.operation
  refine ⟨Store.endWrite_wf h.canonical ?_, h.blank.write hk hend, trivial⟩
  rw [show storeSize = 1024 from rfl, storeAddress]
  omega

/-- A reset keeps the laws, whatever it abandons. -/
theorem StoreAndOperation.abandon (h : StoreAndOperation c op) : StoreAndOperation (c.abandon op) none := by
  unfold Store.abandon
  split
  · exact h.wipe h.operation.1 _
  · exact h.wipe h.operation.1 _
  · exact (h.wipeAll (fun _ => .damaged)).withLock false
  · exact ⟨h.canonical, h.blank, trivial⟩
  · exact ⟨h.canonical, h.blank, trivial⟩
  · exact ⟨h.canonical, h.blank, trivial⟩

end

/-! ## Every step -/

/-- Everything an effect can make of the store and of the operation in execution. -/
theorem Effect.store_cases {s t : State} (h : Effect s t) :
    (t.store = s.store ∧ (t.su.operation = s.su.operation ∨ OperationLaw s.store t.su.operation)) ∨
    (t.store = s.store.abandon s.su.operation ∧ t.su.operation = none) ∨
    (t.store = { s.store with locked := false } ∧ t.su.operation = some .bulkErase) ∨
    (∃ sector offset data, s.su.operation = some (.write sector offset data) ∧
      t.store = s.store.endWrite sector offset data ∧ t.su.operation = none) ∨
    (∃ sector ok, s.su.operation = some (.erase sector) ∧ t.store = s.store.endErase sector ok ∧
      t.su.operation = none) ∨
    (∃ e0 e1 e2 e3, s.su.operation = some .bulkErase ∧ t.store = s.store.endBulkErase e0 e1 e2 e3 ∧
      t.su.operation = none) ∨
    (s.su.operation = some .lock ∧ t.store = { s.store with locked := true } ∧ t.su.operation = none) := by
  cases h with
  | reset => exact .inr (.inl ⟨rfl, rfl⟩)
  | bulkEraseBegins => exact .inr (.inr (.inl ⟨rfl, rfl⟩))
  | written ho => exact .inr (.inr (.inr (.inl ⟨_, _, _, ho, rfl, rfl⟩)))
  | erased ho hr ok => exact .inr (.inr (.inr (.inr (.inl ⟨_, ok, ho, rfl, rfl⟩))))
  | bulkErased ho hr e0 e1 e2 e3 => exact .inr (.inr (.inr (.inr (.inr (.inl ⟨e0, e1, e2, e3, ho, rfl, rfl⟩)))))
  | locked ho => exact .inr (.inr (.inr (.inr (.inr (.inr ⟨ho, rfl, rfl⟩)))))
  | executes hb hd op hop => exact .inl ⟨rfl, .inr hop⟩
  | answers | restartAnswered | entryRead | countersRead | loopbackSet => exact .inl ⟨rfl, .inr trivial⟩
  | serviceEntered => exact .inl ⟨State.arbitrate_store _ _, .inr trivial⟩
  | serviceLeft =>
    unfold State.leaveService
    dsimp only
    split <;> exact .inl ⟨rfl, .inr trivial⟩
  | arbitrated | refused | expired =>
    exact .inl ⟨State.arbitrate_store _ _, .inl (congrArg ServiceUnit.operation (State.arbitrate_su _ _))⟩
  | requestArrives r =>
    refine .inl ⟨rfl, .inl ?_⟩
    dsimp only [ServiceUnit.arrive]
    split
    · rfl
    · split <;> rfl
  | initChecked =>
    obtain ⟨links, cu, eu, h⟩ := s.initChecked_frame
    exact .inl (by rw [h]; exact ⟨rfl, .inl rfl⟩)
  | passCompletes p =>
    obtain ⟨eu, h⟩ := s.completePass_frame p
    exact .inl (by rw [h]; exact ⟨rfl, .inl rfl⟩)
  | wrongCounter =>
    unfold State.wrongCounter
    split <;> exact .inl ⟨rfl, .inl rfl⟩
  | links h =>
    obtain ⟨links, cu, se, eu, rfl⟩ := h.frame
    exact .inl ⟨rfl, .inl rfl⟩
  | _ => exact .inl ⟨rfl, .inl rfl⟩

theorem Effect.storeLaws {s t : State} (h : Effect s t) (hs : StoreLaws s) : StoreLaws t := by
  rw [storeLaws_iff] at hs ⊢
  rcases h.store_cases with ⟨h, ho⟩ | ⟨h, ho⟩ | ⟨h, ho⟩ | ⟨sector, offset, data, hop, h, ho⟩ | ⟨sector, ok, hop, h, ho⟩ |
    ⟨e0, e1, e2, e3, hop, h, ho⟩ | ⟨hop, h, ho⟩
  · rw [h]
    refine ⟨hs.canonical, hs.blank, ?_⟩
    rcases ho with ho | ho
    · exact ho ▸ hs.operation
    · exact ho
  · rw [h, ho]
    exact hs.abandon
  · rw [h, ho]
    exact ⟨hs.canonical, hs.blank, rfl⟩
  · rw [hop] at hs
    rw [h, ho]
    exact hs.write
  · rw [hop] at hs
    rw [h, ho]
    exact hs.wipe hs.operation.1 _
  · rw [h, ho, Store.endBulkErase_eq_wipeAll]
    exact hs.wipeAll _
  · rw [h, ho]
    exact hs.withLock true

/-- A locked store is changed by nothing but the beginning of a bulk erase: what else changes sectors or the lock cell ends
or abandons an operation that runs with the lock cell clear. -/
theorem Effect.locked_store {s t : State} (h : Effect s t) (hs : StoreLaws s) (hl : s.store.locked = true) :
    t.store.cells = s.store.cells ∧ t.store.sectors = s.store.sectors ∧
      (t.store.locked = true ∨ t.su.operation = some .bulkErase) := by
  have hop := hs.operation
  rcases h.store_cases with ⟨h, -⟩ | ⟨h, -⟩ | ⟨h, ho⟩ | ⟨sector, offset, data, hw, -, -⟩ | ⟨sector, ok, he, -, -⟩ |
    ⟨e0, e1, e2, e3, hb, -, -⟩ | ⟨-, h, -⟩
  · rw [h]
    exact ⟨rfl, rfl, .inl hl⟩
  · rw [h]
    unfold Store.abandon
    split
    · next ho => rw [ho] at hop; exact Bool.noConfusion (hl.symm.trans hop.2.2)
    · next ho => rw [ho] at hop; exact Bool.noConfusion (hl.symm.trans hop.2)
    · next ho => rw [ho] at hop; exact Bool.noConfusion (hl.symm.trans hop)
    all_goals exact ⟨rfl, rfl, .inl hl⟩
  · rw [h]
    exact ⟨rfl, rfl, .inr ho⟩
  · rw [hw] at hop
    exact Bool.noConfusion (hl.symm.trans hop.2.2)
  · rw [he] at hop
    exact Bool.noConfusion (hl.symm.trans hop.2)
  · rw [hb] at hop
    exact Bool.noConfusion (hl.symm.trans hop)
  · rw [h]
    exact ⟨rfl, rfl, .inl rfl⟩

/-- Settles O57: both clauses go through what an effect can make of the store and the operation in execution. -/
theorem stepKeepsStoreAndLock : Obligations.StepKeepsStoreAndLock := by
  have hqueue (s : State) (rest : List Instr) (h : StoreLaws s) : StoreLaws { s with pending := rest } :=
    ⟨h.canonical, h.blank, h.operation⟩
  refine ⟨fun s t => step_keeps hqueue Effect.storeLaws, fun s t hs hl hstep => ?_⟩
  obtain ⟨rest, heffect⟩ := step_effect hstep
  exact heffect.locked_store (hqueue s rest hs) hl

end Sys2Proof.Machine
end

section
/-! The services of the Calibration Store (section 10.2): the checks of a write and of an erase, the completions, and O51,
O52, O53, O54. -/

namespace Sys2Proof.Machine

/-! ## WRITE_CAL (R159) -/

/-- The target bytes of a write are blank. -/
theorem Store.read_blank_iff {c : Store} {sector : Nat} (h : c.sectors.get sector ≠ .damaged) (offset count : Nat) :
    (c.read sector offset count).all (· == erasedByte) = true ↔
      ∀ k < count, readCell c.cells (256 * sector + offset + k) = 0xFF#8 := by
  simp [Store.read, Store.byte_of_not_damaged h, Nat.add_assoc]

section
variable {s : State} {r : Request}

/-- A write that begins meets the checks in their order. -/
theorem exec_writeCal_of_begins (h : Begins s 0x11#8 r) :
    exec .writeCal s = .next (
      if s.osc.device ≠ .service then afterResponse s r .wrongState noPayload
      else if !r.inRange then afterResponse s r .badAddress noPayload
      else if s.store.locked then afterResponse s r .locked noPayload
      else if s.store.sectors.get r.sector = .damaged then afterResponse s r .damaged noPayload
      else if (s.store.read r.sector r.offset r.count).all (· == erasedByte) then
        inExecution s (.write r.sector r.offset r.data)
      else afterResponse s r .notErased noPayload) :=
  congrArg Host.Outcome.next (State.beginService_of_begins .writeCal _ h)

/-- An erase that begins meets the checks in their order. -/
theorem exec_eraseSector_of_begins (h : Begins s 0x12#8 r) :
    exec .eraseSector s = .next (
      if s.osc.device ≠ .service then afterResponse s r .wrongState noPayload
      else if 3 < r.sector then afterResponse s r .badAddress noPayload
      else if s.store.locked then afterResponse s r .locked noPayload
      else inExecution s (.erase r.sector)) :=
  congrArg Host.Outcome.next (State.beginService_of_begins .eraseSector _ h)

theorem exec_bulkErase_of_begins (h : Begins s 0x13#8 r) :
    exec .bulkErase s = .next (
      if s.osc.device ≠ .service then afterResponse s r .wrongState noPayload
      else inExecution { s with store := { s.store with locked := false } } .bulkErase) :=
  congrArg Host.Outcome.next (State.beginService_of_begins .bulkErase _ h)

theorem exec_lockStore_of_begins (h : Begins s 0x14#8 r) :
    exec .lockStore s = .next (
      if s.osc.device ≠ .service then afterResponse s r .wrongState noPayload else inExecution s .lock) :=
  congrArg Host.Outcome.next (State.beginService_of_begins .lockStore _ h)

/-! ## Completions -/

theorem exec_writeCalCompletion_of_executing {sector offset : Nat} {data : List Byte}
    (ho : s.su.operation = some (.write sector offset data)) (hr : s.su.queue.head? = some r) :
    exec .writeCalCompletion s =
      .next { afterResponse s r .done noPayload with store := s.store.endWrite sector offset data } := by
  simp only [exec, execWriteCalCompletion, ho, hr]
  rfl

theorem exec_eraseSectorCompletion_of_executing {sector : Nat} (ok : Bool) (ho : s.su.operation = some (.erase sector))
    (hr : s.su.queue.head? = some r) :
    exec (.eraseSectorCompletion ok) s = .next
      { afterResponse s r (if ok then .done else .eraseFailed) noPayload with store := s.store.endErase sector ok } := by
  simp only [exec, execEraseSectorCompletion, ho, hr]
  rfl

theorem exec_bulkEraseCompletion_of_executing (e0 e1 e2 e3 : Bool) (ho : s.su.operation = some .bulkErase)
    (hr : s.su.queue.head? = some r) :
    exec (.bulkEraseCompletion e0 e1 e2 e3) s = .next
      { afterResponse s r (if e0 && e1 && e2 && e3 then .done else .eraseFailed) noPayload with
        store := s.store.endBulkErase e0 e1 e2 e3 } := by
  simp only [exec, execBulkEraseCompletion, ServiceUnit.executing_eq_some.2 ⟨ho, hr⟩]
  rfl

theorem exec_lockStoreCompletion_of_executing (ho : s.su.operation = some .lock) (hr : s.su.queue.head? = some r) :
    exec .lockStoreCompletion s =
      .next { afterResponse s r .done noPayload with store := { s.store with locked := true } } := by
  simp only [exec, execLockStoreCompletion, ServiceUnit.executing_eq_some.2 ⟨ho, hr⟩]
  rfl

end

/-! ## The statements -/

/-- Settles O51: the branches of `exec_writeCal_of_begins`, each reached by the checks before it. -/
theorem writeChecksInOrder : Obligations.WriteChecksInOrder := by
  intro s r hb sector count offset inRange blank refused
  have hrun := exec_writeCal_of_begins hb
  have hrange : r.inRange = true ↔ inRange := r.inRange_iff
  have hblank (hd : s.store.sectors.get r.sector ≠ .damaged) :
      (s.store.read r.sector r.offset r.count).all (· == erasedByte) = true ↔ blank := Store.read_blank_iff hd _ _
  refine ⟨fun hs => ?_, fun hs hr => ?_, fun hs hr hl => ?_,
    fun hs hr hl (hd : s.store.sectors.get r.sector = .damaged) => ?_,
    fun hs hr hl (hd : s.store.sectors.get r.sector ≠ .damaged) hn => ?_,
    fun hs hr hl (hd : s.store.sectors.get r.sector ≠ .damaged) hn => ?_⟩
  · exact hrun.trans (by rw [if_pos hs])
  · exact hrun.trans (by rw [if_neg (not_not.2 hs), if_pos (by simpa using mt hrange.1 hr)])
  all_goals
    have hin : ¬(!r.inRange) = true := by simpa using hrange.2 hr
    rw [if_neg (not_not.2 hs), if_neg hin] at hrun
  · exact hrun.trans (by rw [if_pos hl])
  · exact hrun.trans (by rw [if_neg (by simp [hl]), if_pos hd])
  · exact hrun.trans (by rw [if_neg (by simp [hl]), if_neg hd, if_neg (mt (hblank hd).1 hn)])
  · exact hrun.trans (by rw [if_neg (by simp [hl]), if_neg hd, if_pos ((hblank hd).2 hn)]; rfl)

/-- Settles O52: the bytes of a write read back and no other byte changes, which is `readCell_writeCells`. -/
theorem writeStoresItsBytes : Obligations.WriteStoresItsBytes := by
  intro s r sector offset data ho hr hs hk
  have hlaws := (storeLaws_iff s).1 hs
  rw [ho] at hlaws
  have hread (a : Nat) := readCell_writeCells (storeAddress sector offset) data a ((Memory.wf_iff _).1 hs.canonical).1
  refine ⟨_, exec_writeCalCompletion_of_executing ho hr, rfl, hlaws.write.canonical, fun k hlt => ?_, fun a ha => ?_, ?_,
    fun k hk3 hne => ?_⟩
  · refine (hread _).trans ?_
    rw [storeAddress, if_pos ⟨by omega, by omega⟩, Nat.add_sub_cancel_left]
  · refine (hread _).trans (if_neg ?_)
    rw [storeAddress]
    omega
  · rw [Store.endWrite_get hk hk, if_pos rfl]
  · rw [Store.endWrite_get hk3 hk, if_neg hne]

theorem wipedByte_of_outcome (ok : Bool) :
    wipedByte (if ok then .erased else .damaged) = if ok then 0xFF#8 else 0#8 := by cases ok <;> rfl

/-- Settles O53: the branches of the checks, and at the end the sector is wiped. -/
theorem eraseEndsErasedOrDamaged : Obligations.EraseEndsErasedOrDamaged := by
  intro s r
  constructor
  · intro hb sector refused
    have hrun := exec_eraseSector_of_begins hb
    refine ⟨fun hs => ?_, fun hs (hk : 3 < r.sector) => ?_, fun hs (hk : r.sector ≤ 3) hl => ?_,
      fun hs (hk : r.sector ≤ 3) hl => ?_⟩
    · exact hrun.trans (by rw [if_pos hs])
    all_goals rw [if_neg (not_not.2 hs)] at hrun
    · exact hrun.trans (by rw [if_pos hk])
    · exact hrun.trans (by rw [if_neg (not_lt.2 hk), if_pos hl])
    · exact hrun.trans (by rw [if_neg (not_lt.2 hk), if_neg (by simp [hl])]; rfl)
  · intro sector ok ho hr hk
    refine ⟨_, exec_eraseSectorCompletion_of_executing ok ho hr, rfl, ?_, fun off hoff => ?_,
      fun k hk3 hne => ⟨?_, fun off hoff => ?_⟩⟩ <;> rw [Store.endErase_eq_wipe]
    · rw [Store.wipe_get hk hk, if_pos rfl]
    · rw [Store.wipe_byte hk hk hoff, if_pos rfl, wipedByte_of_outcome]
    · rw [Store.wipe_get hk3 hk, if_neg hne]
    · rw [Store.wipe_byte hk3 hk hoff, if_neg hne]

/-- Settles O54: the branches of the check of the device state, and at the end of a bulk erase all four sectors are wiped. -/
theorem bulkEraseAndLock : Obligations.BulkEraseAndLock := by
  refine ⟨fun s r => ⟨fun hb => ?_, ?_⟩, fun s r => ⟨fun hb => ?_, exec_lockStoreCompletion_of_executing⟩⟩
  · have hrun := exec_bulkErase_of_begins hb
    exact ⟨fun hs => hrun.trans (by rw [if_neg (not_not.2 hs)]), fun hs => hrun.trans (by rw [if_pos hs])⟩
  · intro e0 e1 e2 e3 ho hr erased all
    refine ⟨_, exec_bulkEraseCompletion_of_executing e0 e1 e2 e3 ho hr, rfl, fun k hk => ?_⟩
    rw [Store.endBulkErase_eq_wipeAll]
    refine ⟨Store.wipeAll_get _ _ hk, fun off hoff => ?_⟩
    rw [Store.wipeAll_byte _ _ hk hoff]
    exact wipedByte_of_outcome _
  · have hrun := exec_lockStore_of_begins hb
    exact ⟨fun hs => hrun.trans (by rw [if_neg (not_not.2 hs)]), fun hs => hrun.trans (by rw [if_pos hs])⟩

end Sys2Proof.Machine
end

section
/-! Stages 1 and 2 of a pass: the held and the accepted demand (R25 to R27), the Split Map and the blend (R28 to R30, R34),
and O11, O12. -/

namespace Sys2Proof.Machine

/-! ## Between 0 and a value -/

theorem Within.zero (d : Int) : Within 0 d := by
  unfold Within
  omega

theorem Within.refl (d : Int) : Within d d := by
  unfold Within
  omega

/-- What lies between 0 and a value of a symmetric range is in the range. -/
theorem Within.range {t d lo hi : Int} (h : Within t d) (hlo : lo ≤ 0) (hhi : 0 ≤ hi) (hd : lo ≤ d ∧ d ≤ hi) :
    lo ≤ t ∧ t ≤ hi := by
  unfold Within at h
  omega

/-- What a value leaves of another that it lies below is of the same kind. -/
theorem Within.sub {t d : Int} (h : Within t d) : Within (d - t) d := by
  unfold Within at *
  omega

/-! ## The held demand (R25, R26) -/

theorem DemandRecord.held_of_disabled {r : DemandRecord} (h : r.driveEnable = false) : r.held = 0 := by
  unfold DemandRecord.held
  rw [h]
  rfl

theorem DemandRecord.held_of_enabled {r : DemandRecord} (h : r.driveEnable = true) :
    r.held = if r.regenPermitted = false ∧ r.torque < 0 then 0 else r.torque := by
  unfold DemandRecord.held
  rw [if_pos h]
  simp only [Bool.and_eq_true, Bool.not_eq_true', decide_eq_true_eq]

/-- The held demand is formed from a torque in range, or is 0. -/
theorem DemandRecord.held_within (r : DemandRecord) : Within r.held r.torque := by
  cases h : r.driveEnable with
  | false =>
    rw [r.held_of_disabled h]
    exact .zero _
  | true =>
    rw [r.held_of_enabled h]
    split
    · exact .zero _
    · exact .refl _

theorem rampToZero_within (d : Int) {ramp : Int} (h : 1 ≤ ramp) : Within (rampToZero d ramp) d := by
  unfold rampToZero Within
  split <;> omega

theorem rampToZero_zero {ramp : Int} (h : 1 ≤ ramp) : rampToZero 0 ramp = 0 := by
  unfold rampToZero
  rw [if_pos le_rfl]
  omega

/-- A pass with the record LOST takes at least 1 off the magnitude, until it is 0. -/
theorem rampToZero_natAbs (d : Int) {ramp : Int} (h : 1 ≤ ramp) : (rampToZero d ramp).natAbs ≤ d.natAbs - 1 := by
  unfold rampToZero
  split <;> omega

theorem rampToZero_iterate_natAbs (d : Int) {ramp : Int} (h : 1 ≤ ramp) (n : Nat) :
    ((fun x => rampToZero x ramp)^[n] d).natAbs ≤ d.natAbs - n := by
  induction n with
  | zero => exact le_rfl
  | succ n ih =>
    rw [Function.iterate_succ_apply']
    have := rampToZero_natAbs ((fun x => rampToZero x ramp)^[n] d) h
    omega

theorem Snapshot.newHeld_of_fresh {p : Snapshot} (h : p.demand.freshness = .fresh) : p.newHeld = p.demand.held := by
  rw [Snapshot.newHeld, h]

theorem Snapshot.newHeld_of_kept {p : Snapshot} (h : p.demand.freshness = .absent ∨ p.demand.freshness = .stale) :
    p.newHeld = p.heldDemand := by
  rcases h with h | h <;> rw [Snapshot.newHeld, h]

theorem Snapshot.newHeld_of_lost {p : Snapshot} (h : p.demand.freshness = .lost) :
    p.newHeld = rampToZero p.heldDemand p.image.fallbackRamp := by
  rw [Snapshot.newHeld, h]

/-- The new held demand comes from the record's torque or from the last held demand, and is no larger. -/
theorem Snapshot.newHeld_within (p : Snapshot) : Within p.newHeld p.demand.torque ∨ Within p.newHeld p.heldDemand := by
  cases h : p.demand.freshness with
  | fresh => exact .inl (p.newHeld_of_fresh h ▸ p.demand.held_within)
  | absent => exact .inr (p.newHeld_of_kept (.inl h) ▸ .refl _)
  | stale => exact .inr (p.newHeld_of_kept (.inr h) ▸ .refl _)
  | lost => exact .inr (p.newHeld_of_lost h ▸ rampToZero_within _ p.image.fallbackRamp_pos)

theorem Snapshot.newHeld_of_disabled {p : Snapshot} (hd : p.demand.driveEnable = false)
    (h : p.demand.freshness = .fresh ∨ p.heldDemand = 0) : p.newHeld = 0 := by
  cases hf : p.demand.freshness with
  | fresh => rw [p.newHeld_of_fresh hf, DemandRecord.held_of_disabled hd]
  | absent => exact (p.newHeld_of_kept (.inl hf)).trans (h.resolve_left (by simp [hf]))
  | stale => exact (p.newHeld_of_kept (.inr hf)).trans (h.resolve_left (by simp [hf]))
  | lost => rw [p.newHeld_of_lost hf, h.resolve_left (by simp [hf]), rampToZero_zero p.image.fallbackRamp_pos]

/-! ## The accepted demand (R27) -/

theorem totalCapOf_eq_none {stack : List Entry} (h : ∀ e ∈ stack, e.kind ≠ .totalCap) : totalCapOf stack = none := by
  rw [totalCapOf, smallest_eq_none, List.map_eq_nil_iff, List.filter_eq_nil_iff]
  exact fun e he => by simpa using h e he

theorem totalCapOf_eq_some {stack : List Entry} {e : Entry} (he : e ∈ stack) (hk : e.kind = .totalCap)
    (hle : ∀ e' ∈ stack, e'.kind = .totalCap → e.value ≤ e'.value) : totalCapOf stack = some e.value := by
  refine smallest_eq_some_of_mem (List.mem_map_of_mem (List.mem_filter.2 ⟨he, by simpa using hk⟩)) fun v hv => ?_
  obtain ⟨e', he', rfl⟩ := List.mem_map.1 hv
  obtain ⟨hmem, hkind⟩ := List.mem_filter.1 he'
  exact hle e' hmem (by simpa using hkind)

theorem Snapshot.accepted_of_none {p : Snapshot} (h : totalCapOf p.stack = none) : p.accepted = p.newHeld := by
  rw [Snapshot.accepted, h]

theorem Snapshot.accepted_of_some {p : Snapshot} {c : Nat} (h : totalCapOf p.stack = some c) :
    p.accepted = max (-(c : Int)) (min p.newHeld c) := by
  rw [Snapshot.accepted, h]
  rfl

theorem Snapshot.accepted_within (p : Snapshot) : Within p.accepted p.newHeld := by
  cases h : totalCapOf p.stack with
  | none =>
    rw [p.accepted_of_none h]
    exact .refl _
  | some c =>
    rw [p.accepted_of_some h]
    unfold Within
    omega

/-- Settles O11: the held demand case by case of the record's freshness, the cap by the smallest TOTAL CAP of the stack; and a
ramp of at least 1 takes 24 000 off a magnitude in 24 000 passes. -/
theorem acceptedDemandFollowsRecordAndCaps : Obligations.AcceptedDemandFollowsRecordAndCaps := by
  refine ⟨fun p => ⟨fun hf hd => ?_, Snapshot.newHeld_of_kept, fun hf h0 => ?_, fun hf h0 => ?_,
    fun h => Snapshot.accepted_of_none (totalCapOf_eq_none h),
    fun e he hk hle => Snapshot.accepted_of_some (totalCapOf_eq_some he hk hle), fun hd h => ?_, p.accepted_within⟩,
    fun m d hlo hhi => ?_⟩
  · rw [Snapshot.newHeld_of_fresh hf, DemandRecord.held_of_enabled hd]
  · rw [Snapshot.newHeld_of_lost hf, rampToZero, if_pos h0]
  · rw [Snapshot.newHeld_of_lost hf, rampToZero, if_neg (not_le.2 h0)]
  · have hheld := Snapshot.newHeld_of_disabled hd h
    have haccepted := p.accepted_within
    rw [hheld] at haccepted
    unfold Within at haccepted
    exact ⟨hheld, by omega⟩
  · have := rampToZero_iterate_natAbs d m.fallbackRamp_pos 24000
    omega

/-! ## The Split Map (R30) -/

/-- A part t/n of a way, rounded half up, lies between 0 and the way. -/
theorem roundHalfUp_within (d : Int) {t n : Int} (h0 : 0 ≤ t) (ht : t ≤ n) (hn : 0 < n) :
    Within (roundHalfUp (d * t) n) d := by
  unfold roundHalfUp Within
  have hpos : 0 < 2 * n := by omega
  rcases le_total 0 d with hd | hd
  · have hlo : 0 ≤ d * t := mul_nonneg hd h0
    have hhi : d * t ≤ d * n := mul_le_mul_of_nonneg_left ht hd
    refine .inl ⟨Int.ediv_nonneg (by omega) hpos.le, Int.lt_add_one_iff.1 (Int.ediv_lt_of_lt_mul hpos ?_)⟩
    linarith only [hhi, hn]
  · have hhi : d * t ≤ 0 := mul_nonpos_of_nonpos_of_nonneg hd h0
    have hlo : d * n ≤ d * t := mul_le_mul_of_nonpos_left ht hd
    refine .inr ⟨Int.le_ediv_of_mul_le hpos ?_, Int.lt_add_one_iff.1 (Int.ediv_lt_of_lt_mul hpos ?_)⟩
    · linarith only [hlo, hn]
    · linarith only [hhi, hn]

/-- From its first breakpoint on, an interpolation stays in the range of the values. -/
theorem interpolate_range {v lo hi : Int} : ∀ {l : List (Int × Int)}, (∀ q ∈ l, lo ≤ q.2 ∧ q.2 ≤ hi) → l ≠ [] →
    (∀ q ∈ l.head?, q.1 ≤ v) → lo ≤ interpolate v l ∧ interpolate v l ≤ hi
  | [], _, hne, _ => absurd rfl hne
  | [(v0, y0)], hl, _, _ => hl (v0, y0) (by simp)
  | (v0, y0) :: (v1, y1) :: rest, hl, _, hv => by
    rw [interpolate]
    split
    · next hlt =>
      have hfirst : v0 ≤ v := hv (v0, y0) rfl
      have h0 := hl (v0, y0) (by simp)
      have h1 := hl (v1, y1) (by simp)
      have hway := roundHalfUp_within (y1 - y0) (t := v - v0) (n := v1 - v0) (by omega) (by omega) (by omega)
      unfold Within at hway
      dsimp only at h0 h1
      omega
    · next hge =>
      refine interpolate_range (fun q hq => hl q (List.mem_cons_of_mem _ hq)) (by simp) fun q hq => ?_
      obtain rfl : (v1, y1) = q := Option.some.inj hq
      exact not_lt.1 hge

/-- In the first segment whose upper breakpoint is above the speed, the interpolation of that segment. -/
theorem interpolate_segment (g : Nat → Int × Int) (v : Int) (n i : Nat) : ∀ first : Nat,
    (∀ j < i, (g (first + j + 1)).1 ≤ v) → v < (g (first + i + 1)).1 →
    interpolate v ((List.range' first (i + 2 + n)).map g) = (g (first + i)).2 +
      roundHalfUp (((g (first + i + 1)).2 - (g (first + i)).2) * (v - (g (first + i)).1))
        ((g (first + i + 1)).1 - (g (first + i)).1) := by
  induction i with
  | zero =>
    intro first _ hlt
    rw [show 0 + 2 + n = n + 1 + 1 by omega, List.range'_succ, List.range'_succ]
    exact if_pos hlt
  | succ i ih =>
    intro first hge hlt
    have hskip : ¬v < (g (first + 1)).1 := not_lt.2 (hge 0 (Nat.succ_pos i))
    have hnext := ih (first + 1) (fun j hj => by
      rw [show first + 1 + j + 1 = first + (j + 1) + 1 by omega]
      exact hge (j + 1) (Nat.succ_lt_succ hj)) (by rwa [show first + 1 + i + 1 = first + (i + 1) + 1 by omega])
    rw [show first + (i + 1) = first + 1 + i by omega, ← hnext, show i + 1 + 2 + n = i + 1 + n + 1 + 1 by omega,
      show i + 2 + n = i + 1 + n + 1 by omega, List.range'_succ, List.range'_succ]
    exact if_neg hskip

theorem Image.splitRow_eq (m : Image) (k : Mode) (band : Nat) :
    m.splitRow k band = (List.range' 0 8).map (fun j => (m.breakpoint j, m.splitValue k band j)) := rfl

theorem Image.lookup_segment {m : Image} {band : Nat} {v : Int} (k : Mode) {i : Nat} (hi : i < 7)
    (h0 : m.breakpoint 0 < v) (h7 : v < m.breakpoint 7) (hge : ∀ j < i, m.breakpoint (j + 1) ≤ v)
    (hlt : v < m.breakpoint (i + 1)) : m.lookup k band v = m.splitValue k band i +
      roundHalfUp ((m.splitValue k band (i + 1) - m.splitValue k band i) * (v - m.breakpoint i))
        (m.breakpoint (i + 1) - m.breakpoint i) := by
  have hsegment := interpolate_segment (fun j => (m.breakpoint j, m.splitValue k band j)) v (6 - i) i 0
    (fun j hj => by simpa using hge j hj) (by simpa using hlt)
  rw [show i + 2 + (6 - i) = 8 by omega, ← m.splitRow_eq k band] at hsegment
  rw [Image.lookup, if_neg (not_le.2 h0), if_neg (not_le.2 h7), hsegment]
  simp only [Nat.zero_add]

theorem Image.lookup_range (m : Image) (k : Mode) (band : Nat) (v : Int) :
    0 ≤ m.lookup k band v ∧ m.lookup k band v ≤ 1024 := by
  unfold Image.lookup
  split
  · exact m.splitValue_range k band 0
  · next h0 =>
    split
    · exact m.splitValue_range k band 7
    · refine interpolate_range (fun q hq => ?_) (by simp [Image.splitRow]) fun q hq => ?_
      · obtain ⟨j, -, rfl⟩ := List.mem_map.1 hq
        exact m.splitValue_range k band j
      · obtain rfl : (m.breakpoint 0, m.splitValue k band 0) = q := Option.some.inj hq
        exact (not_le.1 h0).le

/-! ## The blend (R34) -/

/-- The value of the Split Map that the base share is or moves to. -/
abbrev Snapshot.target (p : Snapshot) : Int := p.image.lookup p.mode p.loadBand p.mapSpeed

section
variable {p : Snapshot}

theorem Snapshot.baseShare_of_no_blend (h : p.blend.active = false) :
    p.baseShare = p.target ∧ p.blendCount = p.blend.count := by
  simp only [Snapshot.baseShare, Snapshot.blendCount, h, Bool.false_eq_true, if_false, and_self]

theorem Snapshot.blendCount_of_blend (h : p.blend.active = true) : p.blendCount = p.blend.count + 1 := by
  rw [Snapshot.blendCount, if_pos h]

theorem Snapshot.baseShare_of_blend (h : p.blend.active = true) : p.baseShare =
    p.blend.start + Int.tdiv ((p.target - p.blend.start) * ((p.blend.count + 1 : Nat) : Int)) 250 := by
  rw [← Snapshot.blendCount_of_blend h]
  simp only [Snapshot.baseShare, h, if_true, truncDiv]

end

/-- The truncated part k/250 of a way lies between 0 and the way. -/
theorem within_tdiv_part (d : Int) {k : Nat} (hk : k ≤ 250) : Within (Int.tdiv (d * (k : Int)) 250) d := by
  have hcast : (k : Int) ≤ 250 := by exact_mod_cast hk
  have hpart {a : Int} (ha : 0 ≤ a) : 0 ≤ Int.tdiv (a * (k : Int)) 250 ∧ Int.tdiv (a * (k : Int)) 250 ≤ a := by
    have hpos : 0 ≤ a * (k : Int) := mul_nonneg ha (by omega)
    have hle : a * (k : Int) ≤ a * 250 := mul_le_mul_of_nonneg_left hcast ha
    rw [Int.tdiv_eq_ediv_of_nonneg hpos]
    omega
  rcases le_total 0 d with hd | hd
  · exact .inl (hpart hd)
  · obtain ⟨hlo, hhi⟩ := hpart (neg_nonneg.2 hd)
    rw [neg_mul, Int.neg_tdiv] at hlo hhi
    exact .inr ⟨neg_le_neg_iff.1 hhi, neg_nonneg.1 hlo⟩

theorem Snapshot.baseShare_within {p : Snapshot} (h : p.blend.active = true) (hk : p.blend.count + 1 ≤ 250) :
    Within (p.baseShare - p.blend.start) (p.target - p.blend.start) := by
  rw [Snapshot.baseShare_of_blend h, add_sub_cancel_left]
  exact within_tdiv_part _ hk

/-! ## The map speed and the load band (R28, R29) -/

theorem Snapshot.mapSpeed_of_present {p : Snapshot} (h : p.reference.freshness ≠ .absent) :
    p.mapSpeed = max (p.reference.speed.front.natAbs : Int) (p.reference.speed.rear.natAbs : Int) := by
  unfold Snapshot.mapSpeed
  split
  · next ha => exact absurd ha h
  · rfl

theorem Snapshot.loadBand_of_fresh {p : Snapshot} (h : p.load.freshness = .fresh) : p.loadBand =
    if !p.load.trailer then 0 else if p.load.tongue < p.image.loadThreshold1 then 1
    else if p.load.tongue < p.image.loadThreshold2 then 2 else 3 := by
  rw [Snapshot.loadBand, h]

theorem Snapshot.loadBand_of_not_fresh {p : Snapshot} (h : p.load.freshness ≠ .fresh) :
    p.loadBand = p.image.fallbackBand := by
  unfold Snapshot.loadBand
  split
  · next hf => exact absurd hf h
  · rfl

/-- Settles O12: the map by `Image.lookup_segment` and `Image.lookup_range`, the blend as a part of the way to the target,
the map speed and the load band by the freshness of their records. -/
theorem baseShareFollowsMapAndBlend : Obligations.BaseShareFollowsMapAndBlend := by
  refine ⟨fun m k band v => ?_, fun p => ?_, fun p => ?_⟩
  · intro y b
    refine ⟨fun h => if_pos h, fun h0 h7 => (if_neg (not_le.2 h0)).trans (if_pos h7), fun i hi h0 h7 hge hlt => ⟨?_, ?_⟩,
      m.lookup_range k band v⟩
    · cases i with
      | zero => exact h0.le
      | succ i => exact hge i (Nat.lt_succ_self i)
    · exact Image.lookup_segment k hi h0 h7 hge hlt
  · intro target k
    refine ⟨Snapshot.baseShare_of_no_blend, fun h => ⟨Snapshot.blendCount_of_blend h, Snapshot.baseShare_of_blend h,
      Snapshot.baseShare_within h, fun hk => ?_⟩⟩
    have hk : p.blend.count + 1 = 250 := hk
    rw [Snapshot.baseShare_of_blend h, hk]
    exact (congrArg (p.blend.start + ·) (Int.mul_tdiv_cancel _ (by decide))).trans (by ring)
  · intro t1 t2
    refine ⟨fun h => by rw [Snapshot.mapSpeed, h], Snapshot.mapSpeed_of_present, fun hf => ?_,
      Snapshot.loadBand_of_not_fresh⟩
    rw [Snapshot.loadBand_of_fresh hf]
    have hband (ht : p.load.trailer = true) : ¬(!p.load.trailer) = true := by simp [ht]
    exact ⟨fun ht => if_pos (by simp [ht]), fun ht h1 => (if_neg (hband ht)).trans (if_pos h1),
      fun ht h1 h2 => (if_neg (hband ht)).trans ((if_neg (not_lt.2 h1)).trans (if_pos h2)),
      fun ht h1 h2 => (if_neg (hband ht)).trans ((if_neg (not_lt.2 h1)).trans (if_neg (not_lt.2 h2)))⟩

end Sys2Proof.Machine
end

section
/-! Stages 3 and 5 of a pass: the share (R95 to R97), clamp and transfer (R99 to R102), the ranges of all that a pass hands on
(R16, R109), and O19, O15, O18. -/

namespace Sys2Proof.Machine

/-! ## The share (R95 to R97) -/

/-- In a stack whose levels rise, the SHARE HOLD found first is the one with the lowest level (R79). -/
theorem shareHoldOf_eq_some {stack : List Entry} (hs : stack.Pairwise (fun x y => x.level < y.level)) {e : Entry}
    (he : e ∈ stack) (hk : e.kind = .shareHold) (hle : ∀ e' ∈ stack, e'.kind = .shareHold → e.level ≤ e'.level) :
    shareHoldOf stack = some e.value := by
  unfold shareHoldOf
  induction stack with
  | nil => simp at he
  | cons x rest ih =>
    obtain ⟨hx, hrest⟩ := List.pairwise_cons.1 hs
    by_cases hxk : x.kind = .shareHold
    · have hxe : x = e := by
        rcases List.mem_cons.1 he with rfl | he
        · rfl
        · exact absurd (hle x (by simp) hxk) (not_le.2 (hx e he))
      rw [List.find?_cons_of_pos (by simpa using hxk), hxe]
      rfl
    · have hmem : e ∈ rest := (List.mem_cons.1 he).resolve_left fun hex => hxk (hex ▸ hk)
      rw [List.find?_cons_of_neg (by simpa using hxk)]
      exact ih hrest hmem fun e' he' => hle e' (List.mem_cons_of_mem _ he')

theorem shareHoldOf_eq_none {stack : List Entry} (h : ∀ e ∈ stack, e.kind ≠ .shareHold) : shareHoldOf stack = none := by
  rw [shareHoldOf, Option.map_eq_none_iff, List.find?_eq_none]
  exact fun e he => by simpa using h e he

theorem mem_of_shareHoldOf {stack : List Entry} {v : Nat} (h : shareHoldOf stack = some v) :
    ∃ e ∈ stack, e.kind = .shareHold ∧ e.value = v := by
  obtain ⟨e, he, hv⟩ := Option.map_eq_some_iff.1 h
  have hk := List.find?_some (p := fun x : Entry => x.kind == .shareHold) he
  exact ⟨e, List.mem_of_find?_eq_some he, by simpa using hk, hv⟩

section
variable {p : Snapshot}

theorem Snapshot.share_of_hold {v : Nat} (h : shareHoldOf p.stack = some v) : p.share = v := by
  rw [Snapshot.share, h]

theorem Snapshot.share_of_no_hold (h : shareHoldOf p.stack = none) : p.share =
    max (p.image.shareLow p.mode) (min (p.baseShare + p.correction) (p.image.shareHigh p.mode)) := by
  rw [Snapshot.share, h]
  rfl

/-- What the filtered slip of an axle, by the sign of the accepted demand, exceeds the entry threshold by. -/
abbrev Snapshot.slipAbove (p : Snapshot) (x : Axle) : Int :=
  max 0 (signOf p.accepted * p.filtered.get x - enterThreshold p.image x (p.reference.speed.get x))

theorem Snapshot.slipExcess_of_grip {x : Axle} (h : p.displayed.get x = .grip) : p.slipExcess x = 0 := by
  simp only [Snapshot.slipExcess, h]

theorem Snapshot.slipExcess_of_slip {x : Axle} (h : p.displayed.get x = .slip) : p.slipExcess x = p.slipAbove x := by
  simp only [Snapshot.slipExcess, h]

theorem Snapshot.slipExcess_of_spin {x : Axle} (h : p.displayed.get x = .spin) :
    p.slipExcess x = min (2 * p.slipAbove x) 32767 := by
  simp only [Snapshot.slipExcess, h]

theorem enterThreshold_nonneg (m : Image) (x : Axle) (reference : Int) : 0 ≤ enterThreshold m x reference := by
  have hproduct : 0 ≤ truncDiv ((reference.natAbs : Int) * m.thresholdSlope x) 256 :=
    Int.tdiv_nonneg (mul_nonneg (Int.natCast_nonneg _) (Int.natCast_nonneg _)) (by decide)
  have hbase : 0 ≤ m.baseThreshold x := Int.natCast_nonneg _
  exact add_nonneg hbase hproduct

theorem signOf_mul_le (d v : Int) : signOf d * v ≤ (v.natAbs : Int) := by
  unfold signOf
  split <;> omega

theorem Snapshot.slipExcess_range (p : Snapshot) (x : Axle) : 0 ≤ p.slipExcess x ∧
    (-32767 ≤ p.filtered.get x → p.filtered.get x ≤ 32767 → p.slipExcess x ≤ 32767) := by
  have henter := enterThreshold_nonneg p.image x (p.reference.speed.get x)
  have hslip := signOf_mul_le p.accepted (p.filtered.get x)
  have habove : 0 ≤ p.slipAbove x ∧ p.slipAbove x ≤ ((p.filtered.get x).natAbs : Int) := by
    unfold Snapshot.slipAbove
    omega
  cases h : p.displayed.get x with
  | grip =>
    rw [p.slipExcess_of_grip h]
    omega
  | slip =>
    rw [p.slipExcess_of_slip h]
    omega
  | spin =>
    rw [p.slipExcess_of_spin h]
    omega

theorem Snapshot.correction_of_not_fresh (h : p.reference.freshness ≠ .fresh) : p.correction = 0 := if_neg h

theorem Snapshot.correction_of_fresh (h : p.reference.freshness = .fresh) : p.correction =
    Int.tdiv ((p.slipExcess .rear - p.slipExcess .front) * p.image.slipGain p.mode) 256 := if_pos h

end

/-- Settles O19: the hold of the lowest level, or the corrected share within its limits; the excess by the displayed state. -/
theorem shareFollowsCorrectionOrHold : Obligations.ShareFollowsCorrectionOrHold := by
  intro p
  refine ⟨fun hs e he hk hle => Snapshot.share_of_hold (shareHoldOf_eq_some hs he hk hle), fun h => ?_,
    Snapshot.correction_of_not_fresh, Snapshot.correction_of_fresh, fun x => ?_⟩
  · intro lo hi
    have hshare := Snapshot.share_of_no_hold (shareHoldOf_eq_none h)
    exact ⟨fun hlt => by omega, fun _ => hshare⟩
  · intro slip enter
    obtain ⟨h0, h1⟩ := p.slipExcess_range x
    exact ⟨Snapshot.slipExcess_of_grip, Snapshot.slipExcess_of_slip, Snapshot.slipExcess_of_spin, h0, h1⟩

/-! ## Clamp and transfer (R99 to R102) -/

/-- What clamping to a window that admits 0 does to a torque: it keeps the sign, takes nothing from inside the window, and
what it takes off it takes off at a bound. -/
theorem clamp_facts {w : Window} (hw : WindowLaw w) (t : Int) :
    (w.lo ≤ w.clamp t ∧ w.clamp t ≤ w.hi) ∧ Within (w.clamp t) t ∧
      (0 < t - w.clamp t → w.clamp t = w.hi) ∧ (t - w.clamp t < 0 → w.clamp t = w.lo) := by
  obtain ⟨-, hlo, hhi, -⟩ := hw
  unfold Window.clamp clampInt Within
  omega

theorem Window.isOpen_eq_false_iff (w : Window) : w.isOpen = false ↔ w = ⟨0, 0⟩ := by
  cases w
  simp [Window.isOpen]

theorem noTransferFrom_iff {stack : List Entry} {x : Axle} : noTransferFrom stack x = true ↔
    ∃ e ∈ stack, e.kind = .axleCap ∧ e.axle.names x = true ∧ e.noTransfer = true := by
  simp only [noTransferFrom, List.any_eq_true, mem_axleCapsOf, and_assoc]

theorem Snapshot.mayTransfer_iff (p : Snapshot) (x : Axle) : p.mayTransfer x = true ↔
    p.image.transferFlag p.mode = true ∧ noTransferFrom p.stack x = false ∧ p.displayed.get x.other ≠ .spin ∧
      p.window x.other ≠ ⟨0, 0⟩ := by
  have hopen : (p.window x.other).isOpen = true ↔ p.window x.other ≠ ⟨0, 0⟩ := by
    rw [← Bool.not_eq_false, Ne, Window.isOpen_eq_false_iff]
  simp [Snapshot.mayTransfer, and_assoc, hopen]

theorem other_other (x : Axle) : x.other.other = x := by cases x <;> rfl

theorem Snapshot.transferred_of_barred {p : Snapshot} {x : Axle} (h : p.mayTransfer x = false) : p.transferred x = 0 :=
  if_neg fun hc => Bool.false_ne_true (h.symm.trans hc.2)

theorem Snapshot.transferred_of_allowed {p : Snapshot} {x : Axle} (h : p.mayTransfer x = true) : p.transferred x =
    if p.excess x ≠ 0 then
      (if (p.excess x).natAbs ≤ (p.room x.other (p.excess x)).natAbs then p.excess x else p.room x.other (p.excess x))
    else 0 := by
  simp only [Snapshot.transferred, h, and_true]

section
variable {p : Snapshot}

/-- The room of an axle has the sign of the excess that is offered to it. -/
theorem Snapshot.room_sign (hw : ∀ x, WindowLaw (p.window x)) (y : Axle) (e : Int) :
    (0 < e → p.room y e = (p.window y).hi - p.clamped y ∧ 0 ≤ p.room y e) ∧
    (¬0 < e → p.room y e = (p.window y).lo - p.clamped y ∧ p.room y e ≤ 0) := by
  obtain ⟨⟨hlo, hhi⟩, -, -, -⟩ := clamp_facts (hw y) (p.split.get y)
  unfold Snapshot.room
  refine ⟨fun h => ?_, fun h => ?_⟩
  · rw [if_pos h]
    exact ⟨rfl, sub_nonneg.2 hhi⟩
  · rw [if_neg h]
    exact ⟨rfl, sub_nonpos.2 hlo⟩

/-- What is transferred from an axle is a part of its excess and of the room of the other. -/
theorem Snapshot.transferred_within (hw : ∀ x, WindowLaw (p.window x)) (x : Axle) :
    Within (p.transferred x) (p.excess x) ∧ Within (p.transferred x) (p.room x.other (p.excess x)) := by
  obtain ⟨hpos, hneg⟩ := Snapshot.room_sign hw x.other (p.excess x)
  cases h : p.mayTransfer x with
  | false =>
    rw [Snapshot.transferred_of_barred h]
    exact ⟨.zero _, .zero _⟩
  | true =>
    rw [Snapshot.transferred_of_allowed h]
    unfold Within
    split
    · split <;> omega
    · omega

/-- An axle with an excess has no room for an excess of the same sign, so it is given nothing by the other. -/
theorem Snapshot.transferred_zero_of_excess (hw : ∀ x, WindowLaw (p.window x)) {x : Axle}
    (hsign : (0 < p.excess x ∧ 0 ≤ p.excess x.other) ∨ (p.excess x < 0 ∧ p.excess x.other ≤ 0)) :
    p.transferred x.other = 0 := by
  obtain ⟨hpart, hroom⟩ := Snapshot.transferred_within hw x.other
  obtain ⟨hpos, hneg⟩ := Snapshot.room_sign hw x.other.other (p.excess x.other)
  obtain ⟨-, -, htop, hbottom⟩ := clamp_facts (hw x) (p.split.get x)
  rw [other_other] at hroom hpos hneg
  have hexcess : p.split.get x - (p.window x).clamp (p.split.get x) = p.excess x := rfl
  have hclamped : (p.window x).clamp (p.split.get x) = p.clamped x := rfl
  unfold Within at hpart hroom
  omega

end

/-- The torques of both axles after clamp and transfer, by the parts of the split. -/
structure Fitted (p : Snapshot) : Prop where
  window : ∀ x, (p.window x).lo ≤ p.fitted x ∧ p.fitted x ≤ (p.window x).hi
  sum : Within (p.fitted .front + p.fitted .rear) p.accepted
  single : p.transferred .front = 0 ∨ p.transferred .rear = 0

/-- Where an axle has an excess, the other has none of the other sign that it could give. -/
theorem Snapshot.single_transfer {p : Snapshot} (h0 : 0 ≤ p.share) (h1 : p.share ≤ 1024)
    (hw : ∀ x, WindowLaw (p.window x)) : p.transferred .front = 0 ∨ p.transferred .rear = 0 := by
  obtain ⟨hfront, hrear⟩ := p.split_within h0 h1
  have hwf : Within (p.clamped .front) p.split.front := (clamp_facts (hw .front) (p.split.get .front)).2.1
  have hwr : Within (p.clamped .rear) p.split.rear := (clamp_facts (hw .rear) (p.split.get .rear)).2.1
  have hef : p.excess .front = p.split.front - p.clamped .front := rfl
  have her : p.excess .rear = p.split.rear - p.clamped .rear := rfl
  by_cases he : p.excess .front = 0
  · have hpart := (Snapshot.transferred_within hw .front).1
    rw [he] at hpart
    unfold Within at hpart
    exact .inl (by omega)
  · refine .inr (Snapshot.transferred_zero_of_excess hw (x := .front) ?_)
    have hsign : (0 < p.excess .front ∧ 0 ≤ p.excess .rear) ∨ (p.excess .front < 0 ∧ p.excess .rear ≤ 0) := by
      unfold Within at hfront hrear hwf hwr
      omega
    exact hsign

theorem Snapshot.fitted_window {p : Snapshot} (hw : ∀ x, WindowLaw (p.window x)) (x : Axle) :
    (p.window x).lo ≤ p.fitted x ∧ p.fitted x ≤ (p.window x).hi := by
  have hroom := (Snapshot.transferred_within hw x.other).2
  obtain ⟨hpos, hneg⟩ := Snapshot.room_sign hw x (p.excess x.other)
  have hin : (p.window x).lo ≤ p.clamped x ∧ p.clamped x ≤ (p.window x).hi := (clamp_facts (hw x) (p.split.get x)).1
  have hfitted : p.fitted x = p.clamped x + p.transferred x.other := rfl
  rw [other_other] at hroom
  unfold Within at hroom
  omega

/-- A part of the front's excess moved to the rear, or of the rear's to the front, leaves the sum within the demand. -/
theorem fitted_sum_within {d f r cf cr tf tr : Int} (hsum : r = d - f) (hr : Within r d)
    (hcf : Within cf f) (hcr : Within cr r) (htf : Within tf (f - cf)) (htr : Within tr (r - cr))
    (hone : tf = 0 ∨ tr = 0) : Within (cf + tr + (cr + tf)) d := by
  unfold Within at *
  rcases hone with rfl | rfl <;> omega

theorem Snapshot.fitted_laws {p : Snapshot} (h0 : 0 ≤ p.share) (h1 : p.share ≤ 1024)
    (hw : ∀ x, WindowLaw (p.window x)) : Fitted p where
  window := Snapshot.fitted_window hw
  sum := fitted_sum_within p.split_rear (p.split_within h0 h1).2
    (clamp_facts (hw .front) (p.split.get .front)).2.1 (clamp_facts (hw .rear) (p.split.get .rear)).2.1
    (Snapshot.transferred_within hw .front).1 (Snapshot.transferred_within hw .rear).1
    (Snapshot.single_transfer h0 h1 hw)
  single := Snapshot.single_transfer h0 h1 hw

/-- Settles O15: the windows and the sum by `Snapshot.fitted_laws`, the transfer by who may give and how much room there is. -/
theorem transferKeepsTorqueWithinDemand : Obligations.TransferKeepsTorqueWithinDemand := by
  intro p h0 h1 hw
  obtain ⟨hwindow, hsum, hsingle⟩ := Snapshot.fitted_laws h0 h1 hw
  refine ⟨hwindow, hsum, rfl, hsum.sub, hsingle, fun x hbar => Snapshot.transferred_of_barred ?_, ?_⟩
  · rw [Bool.eq_false_iff, Ne, p.mayTransfer_iff]
    rintro ⟨hflag, hno, hspin, hopen⟩
    rcases hbar with hbar | hbar | hbar | hbar
    · exact Bool.false_ne_true (hbar.symm.trans hflag)
    · exact Bool.false_ne_true (hno.symm.trans (noTransferFrom_iff.2 hbar))
    · exact hspin hbar
    · exact hopen hbar
  · intro clamped x
    refine ⟨rfl, rfl, ?_⟩
    intro room hflag hcaps hspin hopen
    have hmay : p.mayTransfer x = true := (p.mayTransfer_iff x).2 ⟨hflag, by
      rw [Bool.eq_false_iff, Ne, noTransferFrom_iff]
      rintro ⟨e, he, hk, hnames, hno⟩
      exact Bool.false_ne_true ((hcaps e he hk hnames).symm.trans hno), hspin, hopen⟩
    have htransferred := Snapshot.transferred_of_allowed hmay
    have hroom : p.room x.other (p.excess x) = room := rfl
    rw [hroom] at htransferred
    refine ⟨fun hle => ?_, fun hlt => ?_⟩ <;> rw [htransferred]
    · rw [if_pos hle]
      split <;> omega
    · rw [if_neg (not_le.2 hlt), if_pos (by omega)]

/-! ## The ranges of the results (R16) -/

section
variable {p : Snapshot}

theorem SnapshotRanges.windows (h : SnapshotRanges p) (x : Axle) : WindowLaw (p.window x) :=
  p.window_law x (h.capability x).1 (h.capability x).2

theorem SnapshotRanges.newHeld (h : SnapshotRanges p) : -24000 ≤ p.newHeld ∧ p.newHeld ≤ 24000 := by
  rcases p.newHeld_within with hw | hw
  · exact hw.range (by decide) (by decide) h.torque
  · exact hw.range (by decide) (by decide) h.held

theorem SnapshotRanges.accepted (h : SnapshotRanges p) : -24000 ≤ p.accepted ∧ p.accepted ≤ 24000 :=
  p.accepted_within.range (by decide) (by decide) h.newHeld

theorem SnapshotRanges.share (h : SnapshotRanges p) : 0 ≤ p.share ∧ p.share ≤ 1024 := by
  cases hhold : shareHoldOf p.stack with
  | none =>
    rw [Snapshot.share_of_no_hold hhold]
    obtain ⟨hl0, hl1, hh0, hh1⟩ := p.image.shareLimits_range p.mode
    omega
  | some v =>
    rw [Snapshot.share_of_hold hhold]
    obtain ⟨e, he, hk, rfl⟩ := mem_of_shareHoldOf hhold
    obtain ⟨-, -, hvalue, -⟩ := h.stack e he
    have := hvalue hk
    omega

theorem SnapshotRanges.fitted (h : SnapshotRanges p) : Fitted p := Snapshot.fitted_laws h.share.1 h.share.2 h.windows

theorem SnapshotRanges.dischargeLimit (h : SnapshotRanges p) : p.dischargeLimit ≤ 10000 := by
  have hfallback : p.image.fallbackDischarge ≤ 10000 := min_le_right _ _
  cases hf : p.limits.freshness with
  | absent => rw [(Snapshot.limits_of_absent hf).1]; exact hfallback
  | fresh => rw [(Snapshot.limits_of_fresh hf).1]; exact h.limits.1
  | stale => rw [(Snapshot.limits_of_stale hf).1]; exact (min_le_right _ _).trans hfallback

/-- The final clamp puts each output in its window. -/
theorem SnapshotRanges.output (h : SnapshotRanges p) (x : Axle) :
    (p.window x).lo ≤ p.output x ∧ p.output x ≤ (p.window x).hi := (clamp_facts (h.windows x) _).1

theorem Snapshot.output_of_not_active (h : p.device ≠ .active) (x : Axle) : p.output x = 0 := by
  have hclosed : p.window x = ⟨0, 0⟩ := p.window_of_not_stands x (Snapshot.windowStands_eq_false (.inl h))
  rw [p.output_eq, hclosed]
  dsimp only
  omega

theorem SnapshotRanges.baseShare (h : SnapshotRanges p) : 0 ≤ p.baseShare ∧ p.baseShare ≤ 1024 := by
  have htarget := p.image.lookup_range p.mode p.loadBand p.mapSpeed
  cases hb : p.blend.active with
  | false =>
    rw [(Snapshot.baseShare_of_no_blend hb).1]
    exact htarget
  | true =>
    have hway := Snapshot.baseShare_within hb h.blend_count
    obtain ⟨hstart0, hstart1⟩ := h.blend
    unfold Within Snapshot.target at hway
    omega

theorem SnapshotRanges.blendCount (h : SnapshotRanges p) : p.blendCount ≤ 250 := by
  have := h.blend_count
  unfold Snapshot.blendCount
  split <;> omega

theorem SnapshotRanges.record (h : SnapshotRanges p) : RecordRanges p.compute.record where
  output x := by
    obtain ⟨hlo, -, -, hhi⟩ := h.windows x
    obtain ⟨h0, h1⟩ := h.output x
    cases x <;> exact ⟨hlo.trans h0, h1.trans hhi⟩
  share := h.share
  accepted := h.accepted
  unserved := h.fitted.sum.sub.range (by decide) (by decide) h.accepted
  factor := p.factor_range
  discharge := h.dischargeLimit

end

/-- Outside ACTIVE the outputs of a pass are 0. -/
theorem Snapshot.compute_output_of_not_active {p : Snapshot} (h : p.device ≠ .active) :
    p.compute.record.output = ⟨0, 0⟩ := by
  change (⟨p.output .front, p.output .rear⟩ : Axles Int) = ⟨0, 0⟩
  rw [Snapshot.output_of_not_active h, Snapshot.output_of_not_active h]

/-- Settles O18: each result by the stage that gives it. -/
theorem passResultsStayInRange : Obligations.PassResultsStayInRange := by
  intro p h
  refine ⟨h.record, fun x => ?_, Snapshot.compute_output_of_not_active, h.baseShare.1, h.baseShare.2, h.blendCount,
    h.newHeld.1, h.newHeld.2⟩
  cases x
  · exact h.output .front
  · exact h.output .rear

end Sys2Proof.Machine
end

section
/-! O58: the device state and all that follows it. Most effects leave the device state alone (`SameDevice`); the others are
resets, the end of INIT, the pass, and entering and leaving SERVICE. -/

namespace Sys2Proof.Machine

/-- The device state with all that follows it, no torque outside ACTIVE included. -/
def Governed (s : State) : Prop := DeviceLaws s ∧ NoTorqueOutsideActive s

/-- The loopback transition of R130 or a slot leaves of a link what the device state governs of it. -/
structure Link.SameDevice (d : DeviceState) (l l' : Link) : Prop where
  off : l'.state = .off ↔ l.state = .off
  slot : l'.slot = .none ↔ l.slot = .none
  loop : l'.loop ≠ .opened → l.loop ≠ .opened ∨ d = .service

theorem Link.SameDevice.refl (d : DeviceState) (l : Link) : l.SameDevice d l := ⟨.rfl, .rfl, .inl⟩

theorem Link.SameDevice.of_tracks {d : DeviceState} {l l' : Link} (h : l.Tracks l') (hs : l'.slot = .none ↔ l.slot = .none) :
    l.SameDevice d l' := ⟨h.off, hs, fun hl => .inl (h.loop ▸ hl)⟩

/-- The device state, and what it governs, stay as they are. -/
structure SameDevice (s t : State) : Prop where
  osc : t.osc = s.osc
  links : ∀ x, (s.links.get x).SameDevice s.osc.device (t.links.get x)
  passTimer : t.ae.passTimer = s.ae.passTimer
  pass : t.ae.pass = s.ae.pass
  output : t.ae.record.output = s.ae.record.output
  prev : t.ae.prev = s.ae.prev
  operation : t.su.operation = some .imageCheck → s.su.operation = some .imageCheck ∨ s.osc.device = .service
  lists : s.osc.device ≠ .standby → s.osc.device ≠ .active → s.ia.stack = [] ∧ s.ia.waiting = [] →
    t.ia.stack = [] ∧ t.ia.waiting = []

theorem SameDevice.governed {s t : State} (h : SameDevice s t) (hs : Governed s) : Governed t := by
  obtain ⟨hd, hn⟩ := hs
  refine ⟨?_, ?_⟩
  · constructor
    · rw [h.osc]; exact hd.held
    · rw [h.osc]; exact hd.checking
    · intro x; rw [h.osc, (h.links x).off]; exact hd.links_off x
    · intro x; rw [h.osc, (h.links x).slot]; exact hd.slots x
    · intro x hx
      rw [h.osc]
      exact ((h.links x).loop hx).elim (hd.loops x) id
    · rw [h.osc, h.passTimer]; exact hd.pass_timer
    · rw [h.osc, h.passTimer, h.pass]; exact hd.pass
    · intro hop
      rw [h.osc]
      exact (h.operation hop).elim hd.leaving id
    · rw [h.osc]
      exact fun h0 h1 => h.lists h0 h1 (hd.lists h0 h1)
  · intro hne
    rw [h.output, h.prev]
    exact hn (h.osc ▸ hne)

/-! ## Effects that leave the device state alone -/

theorem Arbiter.expire_of_empty {a : Arbiter} (hs : a.stack = []) (hw : a.waiting = []) (src : Source) (tag : Byte) :
    (a.expire src tag).ia = a := by
  have hnone : a.find src tag = none := Arbiter.find_eq_none (by simp [hs, hw])
  rw [Arbiter.expire, hnone]

theorem ServiceUnit.arrive_operation (u : ServiceUnit) (r : Request) : (u.arrive r).operation = u.operation := by
  unfold ServiceUnit.arrive
  split
  · rfl
  · split <;> rfl

section
variable {s : State}

/-- The IA's lists change in STANDBY and ACTIVE alone, or not at all while both are empty. -/
theorem SameDevice.arbitrate {r : Arbitration} (h : s.osc.device ≠ .standby → s.osc.device ≠ .active →
    s.ia.stack = [] ∧ s.ia.waiting = [] → r.ia.stack = [] ∧ r.ia.waiting = []) : SameDevice s (s.arbitrate r) where
  osc := s.arbitrate_osc r
  links x := by rw [s.arbitrate_links]; exact .refl _ _
  passTimer := by rw [s.arbitrate_ae]
  pass := by rw [s.arbitrate_ae]
  output := by rw [s.arbitrate_ae]
  prev := by rw [s.arbitrate_ae]
  operation := by rw [s.arbitrate_su]; exact .inl
  lists := by rw [s.arbitrate_ia]; exact h

theorem SameDevice.link {t : State} (h : LinkEffect s t) : SameDevice s t := by
  have hlinks := h.links
  obtain ⟨links, cu, se, eu, rfl⟩ := h.frame
  exact ⟨rfl, fun x => .of_tracks (hlinks x).1 (hlinks x).2, rfl, rfl, rfl, rfl, .inl, fun _ _ h => h⟩

end

/-! ## The effects that move the device state -/

theorem OperatingState.held_of_holds {o : OperatingState} {kind : ResetKind} (h : o.holds kind = true) : o.held = true := by
  cases kind <;> simp_all [OperatingState.holds, OperatingState.held]

section
variable {s : State}

theorem governed_reset (kind : ResetKind) : Governed (s.enterReset kind) := by
  have hdevice : (s.enterReset kind).osc.device = .init := OperatingState.setHold_device _ kind true
  have hchecking : (s.enterReset kind).osc.checking = false := OperatingState.setHold_checking _ kind true
  refine ⟨⟨fun _ => hdevice, fun h => ?_, fun x => ?_, fun x => ?_, fun x h => ?_, ?_, ?_, ?_, fun _ _ => ⟨rfl, rfl⟩⟩,
    fun _ => ⟨rfl, rfl⟩⟩
  · rw [hchecking] at h
    cases h
  · cases x <;> exact iff_of_true rfl hdevice
  · cases x <;> exact iff_of_true rfl hdevice
  · cases x <;> exact absurd rfl h
  · rw [hdevice]
    simp [Engine.reset]
  · intro p hp
    cases hp
  · intro h
    cases h

theorem Governed.released (hs : Governed s) {kind : ResetKind} (h : s.osc.holds kind = true) : Governed { s with
    osc := { s.osc.setHold kind false with checking := !(s.osc.setHold kind false).held } } := by
  obtain ⟨hd, hn⟩ := hs
  have hinit : s.osc.device = .init := hd.held (.inl (OperatingState.held_of_holds h))
  have hdevice : (s.osc.setHold kind false).device = s.osc.device := OperatingState.setHold_device _ kind false
  refine ⟨⟨fun _ => hdevice.trans hinit, fun hc => ?_, fun x => ?_, fun x => ?_, fun x => ?_, ?_, ?_, ?_, ?_⟩, ?_⟩
  · exact Bool.not_eq_true' _ ▸ hc
  all_goals dsimp only
  all_goals rw [hdevice]
  · exact hd.links_off x
  · exact hd.slots x
  · exact hd.loops x
  · exact hd.pass_timer
  · exact hd.pass
  · exact hd.leaving
  · exact hd.lists
  · intro hne
    exact hn (by rw [hinit]; decide)

/-- In INIT, in SERVICE and in SAFE HOLD no pass is in progress, and both lists and both outputs are clear. -/
theorem Governed.idle (hs : Governed s) (h0 : s.osc.device ≠ .standby) (h1 : s.osc.device ≠ .active) :
    s.ae.passTimer = false ∧ s.ae.pass = none ∧ (s.ia.stack = [] ∧ s.ia.waiting = []) ∧
      s.ae.record.output = ⟨0, 0⟩ ∧ s.ae.prev = ⟨0, 0⟩ := by
  obtain ⟨hd, hn⟩ := hs
  have htimer : s.ae.passTimer = false := by
    rw [Bool.eq_false_iff, Ne, hd.pass_timer]
    rintro (h | h)
    · exact h0 h
    · exact h1 h
  refine ⟨htimer, ?_, hd.lists h0 h1, hn h1⟩
  cases hp : s.ae.pass with
  | none => rfl
  | some p => exact absurd (htimer.symm.trans (hd.pass p hp).1) Bool.false_ne_true

/-- Outside INIT the TQ620 is neither held in reset nor at the image check of INIT. -/
theorem Governed.not_held (hs : Governed s) (h : s.osc.device ≠ .init) :
    s.osc.held = false ∧ s.osc.checking = false :=
  ⟨Bool.eq_false_iff.2 fun hc => h (hs.1.held (.inl hc)), Bool.eq_false_iff.2 fun hc => h (hs.1.held (.inr hc))⟩

theorem Governed.initChecked (hs : Governed s) (h : s.osc.checking = true) :
    Governed ((s.leaveInit.openSlot .front 0 0#32).openSlot .rear 0 0#32) := by
  have hlinks := s.initChecked_links
  obtain ⟨links, cu, eu, hframe⟩ := s.initChecked_frame
  rw [hframe] at hlinks ⊢
  have hinit : s.osc.device = .init := hs.1.held (.inr h)
  obtain ⟨-, hpass, hlists, houtput, hprev⟩ := hs.idle (by rw [hinit]; decide) (by rw [hinit]; decide)
  have hdevice : s.leaveInit.osc.device = if s.store.image.valid then .standby else .safeHold := rfl
  have hout : s.leaveInit.osc.device ≠ .init := by
    rw [hdevice]
    split <;> exact DeviceState.noConfusion
  have hloop (x : Axle) : (links.get x).loop = .opened := by
    refine (hlinks x).1.loop.trans ?_
    rw [s.leaveInit_get]
    by_contra hne
    exact absurd (hinit.symm.trans (hs.1.loops x hne)) (by decide)
  refine ⟨⟨?_, fun hc => absurd hc Bool.false_ne_true, fun x => ?_, fun x => ?_, fun x hx => absurd (hloop x) hx, ?_, ?_, ?_,
    fun _ _ => hlists⟩, fun _ => ⟨houtput, hprev⟩⟩
  · rintro (hc | hc)
    · exact absurd (hc.symm.trans (hs.1.checking h)) (by decide)
    · exact absurd hc Bool.false_ne_true
  · refine iff_of_false ?_ hout
    rw [(hlinks x).1.off, s.leaveInit_get]
    exact LinkState.noConfusion
  · exact iff_of_false (hlinks x).2.1 hout
  · show s.store.image.valid = true ↔ s.leaveInit.osc.device = .standby ∨ s.leaveInit.osc.device = .active
    rw [hdevice]
    cases s.store.image.valid <;> simp
  · intro p hp
    rw [show s.leaveInit.ae.pass = s.ae.pass from rfl, hpass] at hp
    cases hp
  · intro hop
    exact absurd (hinit.symm.trans (hs.1.leaving hop)) (by decide)

theorem Governed.passBegins (hs : Governed s) (h : s.ae.passTimer = true) :
    Governed { s with ae := { s.ae with pass := some ⟨s.snapshot, s.snapshot.compute⟩ } } := by
  obtain ⟨hd, hn⟩ := hs
  refine ⟨⟨hd.held, hd.checking, hd.links_off, hd.slots, hd.loops, hd.pass_timer, ?_, hd.leaving, hd.lists⟩, hn⟩
  rintro p ⟨⟩
  exact ⟨h, rfl, rfl⟩

/-- A pass leaves STANDBY for ACTIVE, or ACTIVE for STANDBY with both outputs 0, or neither. -/
theorem Pass.nextDevice_cases {p : Pass} {d : DeviceState} (hd : p.snapshot.device = d) (h : d = .standby ∨ d = .active) :
    p.nextDevice d = .active ∨
      (p.nextDevice d = .standby ∧ (p.snapshot.device ≠ .active ∨ p.result.record.output = ⟨0, 0⟩)) := by
  unfold Pass.nextDevice
  split
  · exact .inl rfl
  · split
    · next hl =>
      refine .inr ⟨rfl, .inr ?_⟩
      have hout := (Bool.and_eq_true_iff.1 hl.2).2
      simpa using hout
    · rcases h with rfl | rfl
      · exact .inr ⟨rfl, .inl (by rw [hd]; decide)⟩
      · exact .inl rfl

theorem Governed.passCompletes (hs : Governed s) {p : Pass} (h : s.ae.pass = some p) : Governed (s.completePass p) := by
  obtain ⟨eu, hframe⟩ := s.completePass_frame p
  rw [hframe]
  obtain ⟨hd, hn⟩ := hs
  obtain ⟨htimer, hdevice, hresult⟩ := hd.pass p h
  have hwas : s.osc.device = .standby ∨ s.osc.device = .active := hd.pass_timer.1 htimer
  have hinit : s.osc.device ≠ .init := by rcases hwas with h | h <;> rw [h] <;> decide
  have hservice : s.osc.device ≠ .service := by rcases hwas with h | h <;> rw [h] <;> decide
  obtain ⟨hheld, hchecking⟩ := Governed.not_held ⟨hd, hn⟩ hinit
  have hnext := Pass.nextDevice_cases hdevice hwas
  have hnow : p.nextDevice s.osc.device = .standby ∨ p.nextDevice s.osc.device = .active :=
    hnext.elim .inr fun h => .inl h.1
  have hnoinit : p.nextDevice s.osc.device ≠ .init := by rcases hnow with h | h <;> rw [h] <;> decide
  refine ⟨⟨?_, fun hc => absurd (hchecking.symm.trans hc) Bool.false_ne_true, fun x => ?_, fun x => ?_, fun x hx => ?_, ?_,
    fun _ hp => (Option.not_mem_none _ hp).elim, fun hop => ?_, fun h0 h1 => ?_⟩, fun hne => ?_⟩
  · rintro (hc | hc)
    · exact absurd (hheld.symm.trans hc) Bool.false_ne_true
    · exact absurd (hchecking.symm.trans hc) Bool.false_ne_true
  · exact iff_of_false (mt (hd.links_off x).1 hinit) hnoinit
  · exact iff_of_false (mt (hd.slots x).1 hinit) hnoinit
  · exact absurd (hd.loops x hx) hservice
  · exact iff_of_true htimer hnow
  · exact absurd (hd.leaving hop) hservice
  · exact (hnow.elim h0 h1).elim
  · have hzero : p.result.record.output = ⟨0, 0⟩ := by
      rcases hnext with hact | ⟨-, hout | hout⟩
      · exact absurd hact hne
      · rw [hresult]
        exact Snapshot.compute_output_of_not_active hout
      · exact hout
    exact ⟨hzero, hzero⟩

theorem Governed.serviceEntered (hs : Governed s) (h : s.osc.device = .standby ∨ s.osc.device = .safeHold) (r : Request) :
    Governed (s.enterService.respond r .done []) := by
  have hinit : s.osc.device ≠ .init := by rcases h with h | h <;> rw [h] <;> decide
  obtain ⟨hheld, hchecking⟩ := hs.not_held hinit
  have hosc : s.enterService.osc = { s.osc with device := .service } := State.arbitrate_osc _ _
  have hae : s.enterService.ae = s.ae.enterService := State.arbitrate_ae _ _
  have hlinks : s.enterService.links = s.links := State.arbitrate_links _ _
  have hia : s.enterService.ia = s.ia.clear.ia := State.arbitrate_ia _ _
  refine ⟨⟨?_, ?_, fun x => ?_, fun x => ?_, fun _ _ => ?_, ?_, ?_, fun _ => ?_, fun _ _ => ?_⟩, fun _ => ?_⟩
  all_goals simp only [State.respond_osc, State.respond_ae, State.respond_links, State.respond_ia, hosc, hae, hlinks, hia]
  · rintro (hc | hc)
    · exact absurd (hheld.symm.trans hc) Bool.false_ne_true
    · exact absurd (hchecking.symm.trans hc) Bool.false_ne_true
  · exact fun hc => absurd (hchecking.symm.trans hc) Bool.false_ne_true
  · exact iff_of_false (mt (hs.1.links_off x).1 hinit) DeviceState.noConfusion
  · exact iff_of_false (mt (hs.1.slots x).1 hinit) DeviceState.noConfusion
  · simp [Engine.enterService]
  · exact fun _ hp => (Option.not_mem_none _ hp).elim
  · exact ⟨rfl, rfl⟩
  · exact ⟨rfl, rfl⟩

theorem Link.openLoop_opened (l : Link) : l.openLoop.loop = .opened := by
  unfold Link.openLoop
  split
  · assumption
  · rfl

theorem Link.openLoop_off {l : Link} (h : l.state ≠ .off) : l.openLoop.state ≠ .off := by
  unfold Link.openLoop
  split
  · exact h
  · exact LinkState.noConfusion

/-- What LEAVE SERVICE leaves, by the outcome of its image check. -/
theorem State.leaveService_cases (s : State) (r : Request) :
    (s.store.image.valid = true ∧ s.leaveService r = { s.adoptImage with
      links := ⟨s.links.front.openLoop, s.links.rear.openLoop⟩
      osc := { s.osc with device := .standby }
      ae := { s.ae with passTimer := true } }.respond r .done []) ∨
    (s.store.image.valid = false ∧ s.leaveService r = { s.adoptImage with
      links := ⟨s.links.front.openLoop, s.links.rear.openLoop⟩
      osc := { s.osc with device := .safeHold } }.respond r .imageInvalid []) := by
  unfold State.leaveService
  cases h : s.store.image.valid
  · exact .inr ⟨rfl, rfl⟩
  · exact .inl ⟨rfl, rfl⟩

theorem Governed.serviceLeft (hs : Governed s) (ho : s.su.operation = some .imageCheck) (r : Request) :
    Governed (s.leaveService r) := by
  have hservice : s.osc.device = .service := hs.1.leaving ho
  have hinit : s.osc.device ≠ .init := by rw [hservice]; decide
  obtain ⟨htimer, hpass, hlists, houtput, hprev⟩ := hs.idle (by rw [hservice]; decide) (by rw [hservice]; decide)
  obtain ⟨hheld, hchecking⟩ := hs.not_held hinit
  have hloop (x : Axle) : ((⟨s.links.front.openLoop, s.links.rear.openLoop⟩ : Axles Link).get x) = (s.links.get x).openLoop := by
    cases x <;> rfl
  have hoff (x : Axle) : (s.links.get x).openLoop.state ≠ .off := Link.openLoop_off (mt (hs.1.links_off x).1 hinit)
  have hslot (x : Axle) : (s.links.get x).openLoop.slot ≠ .none :=
    fun h => hinit ((hs.1.slots x).1 ((s.links.get x).openLoop_slot.2.1 h))
  have hnot : s.osc.held = true ∨ s.osc.checking = true → False := by
    rintro (hc | hc)
    · exact absurd (hheld.symm.trans hc) Bool.false_ne_true
    · exact absurd (hchecking.symm.trans hc) Bool.false_ne_true
  have hnopass : ∀ q ∈ s.ae.pass, False := fun q hq => by rw [hpass] at hq; exact Option.not_mem_none _ hq
  rcases s.leaveService_cases r with ⟨-, h⟩ | ⟨-, h⟩ <;> rw [h]
  · refine ⟨⟨fun hc => (hnot hc).elim, fun hc => (hnot (.inr hc)).elim, fun x => iff_of_false ?_ DeviceState.noConfusion,
      fun x => iff_of_false ?_ DeviceState.noConfusion, fun x hx => ?_, iff_of_true rfl (.inl rfl), fun q hq => (hnopass q hq).elim,
      nofun, fun _ _ => hlists⟩, fun _ => ⟨houtput, hprev⟩⟩
    · rw [State.respond_links, hloop]; exact hoff x
    · rw [State.respond_links, hloop]; exact hslot x
    · rw [State.respond_links, hloop] at hx; exact absurd (Link.openLoop_opened _) hx
  · refine ⟨⟨fun hc => (hnot hc).elim, fun hc => (hnot (.inr hc)).elim, fun x => iff_of_false ?_ DeviceState.noConfusion,
      fun x => iff_of_false ?_ DeviceState.noConfusion, fun x hx => ?_, ?_, fun q hq => (hnopass q hq).elim,
      nofun, fun _ _ => hlists⟩, fun _ => ⟨houtput, hprev⟩⟩
    · rw [State.respond_links, hloop]; exact hoff x
    · rw [State.respond_links, hloop]; exact hslot x
    · rw [State.respond_links, hloop] at hx; exact absurd (Link.openLoop_opened _) hx
    · refine iff_of_false (fun ht => absurd (htimer.symm.trans ht) Bool.false_ne_true) ?_
      rintro (hd | hd) <;> cases hd

end

/-! ## Every effect -/

/-- Where only the SU, the links, the store and blocks without a law of their own change, the device state is the same. -/
theorem Effect.governed {s t : State} (h : Effect s t) (hs : Governed s) : Governed t := by
  cases h with
  | reset kind => exact governed_reset kind
  | released kind h => exact hs.released h
  | initChecked h => exact hs.initChecked h
  | passBegins h => exact hs.passBegins h
  | passCompletes p h => exact hs.passCompletes h
  | serviceEntered _ hd => exact hs.serviceEntered hd _
  | serviceLeft ho => exact hs.serviceLeft ho _
  | links h => exact (SameDevice.link h).governed hs
  | arbitrated src action f hd =>
    exact (SameDevice.arbitrate fun h0 h1 => (hd.elim h0 h1).elim).governed hs
  | refused => exact (SameDevice.arbitrate fun _ _ h => h).governed hs
  | expired src tag =>
    refine (SameDevice.arbitrate fun _ _ h => ?_).governed hs
    rw [Arbiter.expire_of_empty h.1 h.2]
    exact h
  | loopbackSet _ hd x kind =>
    have hinit : s.osc.device ≠ .init := by rw [hd]; decide
    have hlinks : ∀ y, (s.links.get y).SameDevice s.osc.device
        ((s.links.set x ((s.links.get x).transition kind)).get y) :=
      axles_forall_set (P := fun y (l : Link) => (s.links.get y).SameDevice s.osc.device l) (fun y => .refl _ _)
        ⟨iff_of_false LinkState.noConfusion (mt (hs.1.links_off x).1 hinit), Link.transition_slot _ _, fun _ => .inr hd⟩
    exact SameDevice.governed (s := s) ⟨rfl, hlinks, rfl, rfl, rfl, rfl, nofun, fun _ _ h => h⟩ hs
  | countersRead _ x =>
    have hlinks : ∀ y, (s.links.get y).SameDevice s.osc.device
        ((s.links.set x { s.links.get x with nearErrors := 0, farErrors := 0 }).get y) :=
      axles_forall_set (P := fun y (l : Link) => (s.links.get y).SameDevice s.osc.device l) (fun y => .refl _ _)
        ⟨.rfl, .rfl, .inl⟩
    exact SameDevice.governed (s := s) ⟨rfl, hlinks, rfl, rfl, rfl, rfl, nofun, fun _ _ h => h⟩ hs
  | wrongCounter =>
    unfold State.wrongCounter
    split <;>
      exact SameDevice.governed (s := s) ⟨rfl, fun x => .refl _ _, rfl, rfl, rfl, rfl, .inl, fun _ _ h => h⟩ hs
  | requestArrives r =>
    refine SameDevice.governed (s := s) ⟨rfl, fun x => .refl _ _, rfl, rfl, rfl, rfl, fun h => .inl ?_, fun _ _ h => h⟩ hs
    exact (ServiceUnit.arrive_operation _ r).symm.trans h
  | executes _ hd | bulkEraseBegins _ hd =>
    exact SameDevice.governed (s := s) ⟨rfl, fun x => .refl _ _, rfl, rfl, rfl, rfl, fun _ => .inr hd, fun _ _ h => h⟩ hs
  | answers | restartAnswered | entryRead | written | erased | bulkErased | locked =>
    exact SameDevice.governed (s := s) ⟨rfl, fun x => .refl _ _, rfl, rfl, rfl, rfl, nofun, fun _ _ h => h⟩ hs
  | _ => exact SameDevice.governed (s := s) ⟨rfl, fun x => .refl _ _, rfl, rfl, rfl, rfl, .inl, fun _ _ h => h⟩ hs

theorem Governed.of_queue {s : State} (h : Governed s) (rest : List Instr) : Governed { s with pending := rest } :=
  SameDevice.governed (s := s) ⟨rfl, fun _ => .refl _ _, rfl, rfl, rfl, rfl, .inl, fun _ _ h => h⟩ h

/-- Settles O58: by what each effect makes of the device state. -/
theorem stepKeepsDeviceLawsAndNoTorque : Obligations.StepKeepsDeviceLawsAndNoTorque := by
  intro s t hd hn hstep
  exact step_keeps (Law := Governed) (fun _ rest h => h.of_queue rest) Effect.governed ⟨hd, hn⟩ hstep

end Sys2Proof.Machine
end

section
/-! The slip estimator's arithmetic: the filter (R44 to R46), the thresholds (R47), the automatic slip state (R49 to R51),
and O23, O24. -/

namespace Sys2Proof.Machine

/-! ## The filter (R44 to R46) -/

theorem Image.filterLength_range (m : Image) (x : Axle) : 4 ≤ m.filterLength x ∧ m.filterLength x ≤ 16 := by
  unfold Image.filterLength clampNat
  omega

theorem shiftTaps_eq (taps : List Int) (r : Int) : shiftTaps taps r = r :: taps.take 15 := rfl

/-- The products are taken over the first taps, each with the coefficient of its number. -/
theorem filterSum_eq {m : Image} {x : Axle} {taps : List Int} (h : taps.length = 16) :
    filterSum m x taps = ∑ k ∈ Finset.range (m.filterLength x), m.coefficient x k * taps.getD k 0 := by
  have hzip : (List.range (m.filterLength x)).zip taps =
      (List.range (m.filterLength x)).map fun k => (k, taps.getD k 0) := by
    have hlen := (m.filterLength_range x).2
    refine List.ext_getElem (by simp; omega) fun k h1 h2 => ?_
    have hk : k < taps.length := by simp at h1; omega
    simp [hk]
  unfold filterSum
  rw [hzip, List.map_map]
  rfl

theorem abs_coefficient_le (m : Image) (x : Axle) (k : Nat) : |m.coefficient x k| ≤ 32768 := by
  obtain ⟨hlo, hhi⟩ := toInt_range (BitVec.ofNat 16 (m.u16 3 (slipBlock x + 0x02 + 2 * k)))
  exact abs_le.2 ⟨hlo, hhi.trans (by decide)⟩

theorem abs_filterSum_le {m : Image} {x : Axle} {taps : List Int} (h : taps.length = 16)
    (hr : ∀ r ∈ taps, -32767 ≤ r ∧ r ≤ 32767) : |filterSum m x taps| ≤ 17179344896 := by
  have hlen := (m.filterLength_range x).2
  rw [filterSum_eq h]
  calc |∑ k ∈ Finset.range (m.filterLength x), m.coefficient x k * taps.getD k 0|
      ≤ ∑ k ∈ Finset.range (m.filterLength x), |m.coefficient x k * taps.getD k 0| := Finset.abs_sum_le_sum_abs _ _
    _ ≤ (Finset.range (m.filterLength x)).card • (32768 * 32767 : Int) := by
      refine Finset.sum_le_card_nsmul _ _ _ fun k hk => ?_
      have hk16 : k < taps.length := by rw [Finset.mem_range] at hk; omega
      have hmem : taps.getD k 0 ∈ taps := by rw [List.getD_eq_getElem _ _ hk16]; exact List.getElem_mem hk16
      rw [abs_mul]
      exact mul_le_mul (abs_coefficient_le m x k) (abs_le.2 (hr _ hmem)) (abs_nonneg _) (by decide)
    _ ≤ 17179344896 := by
      rw [Finset.card_range, nsmul_eq_mul]
      omega

theorem saturate_eq (q : Int) : saturate 32767 q = max (-32767) (min q 32767) := rfl

theorem saturate_range (q : Int) : -32767 ≤ saturate 32767 q ∧ saturate 32767 q ≤ 32767 := by
  rw [saturate_eq]
  omega

/-- Settles O23: the sum by its products, the rounding by Euclidean division, the accumulator by the triangle inequality. -/
theorem filterRoundsAndSaturates : Obligations.FilterRoundsAndSaturates := by
  refine ⟨fun a m x r h => ?_, fun m x taps h hr => abs_le.1 (abs_filterSum_le h hr)⟩
  intro taps sum q b
  obtain ⟨hlo, hhi⟩ := m.filterLength_range x
  have hlen : taps.length = 16 := by simp [taps, h]
  have hq : filterRounded m x taps = q := by
    rw [filterRounded, floorDiv_eq_fdiv _ (by decide), filterSum_eq hlen]
  have hfiltered : b.filtered = max (-32767) (min q 32767) := by rw [← hq]; rfl
  have hsaturated : b.saturated = decide (max (-32767) (min q 32767) ≠ q) := by rw [← hq]; rfl
  refine ⟨hlo, hhi, rfl, hlen, ?_, fun h0 h1 => ?_, fun h0 => ?_, fun h0 => ?_, rfl, rfl, rfl, rfl⟩
  · show Int.fdiv (sum + 16384) 32768 = Int.fdiv (2 * sum + 32768) 65536
    rw [Int.fdiv_eq_ediv_of_nonneg _ (by decide), Int.fdiv_eq_ediv_of_nonneg _ (by decide)]
    omega
  all_goals
    rw [hfiltered, hsaturated]
    simp only [decide_eq_true_eq, decide_eq_false_iff_not]
    omega

/-! ## The thresholds (R47) -/

theorem Image.thresholdSlope_range (m : Image) (x : Axle) : 0 ≤ m.thresholdSlope x ∧ m.thresholdSlope x ≤ 255 := by
  have := (m.byte 3 (slipBlock x + 0x01)).isLt
  unfold Image.thresholdSlope Image.u8
  omega

theorem Image.slipMargins_range (m : Image) (x : Axle) : (0 ≤ m.baseThreshold x ∧ m.baseThreshold x ≤ 32767) ∧
    (0 ≤ m.spinMargin x ∧ m.spinMargin x ≤ 32767) ∧ 0 ≤ m.hysteresis x := by
  unfold Image.baseThreshold Image.spinMargin Image.hysteresis
  omega

/-- For a 16-bit reference speed the entry threshold is at most 32 767 + 32 640. -/
theorem enterThreshold_le (m : Image) (x : Axle) {ref : Int} (h0 : -32768 ≤ ref) (h1 : ref ≤ 32767) :
    enterThreshold m x ref ≤ 65407 := by
  obtain ⟨hslope0, hslope1⟩ := m.thresholdSlope_range x
  have hproduct : (ref.natAbs : Int) * m.thresholdSlope x ≤ 32768 * 255 :=
    mul_le_mul (by omega) hslope1 hslope0 (by decide)
  have hnonneg : 0 ≤ (ref.natAbs : Int) * m.thresholdSlope x := mul_nonneg (Int.natCast_nonneg _) hslope0
  have hbase := (m.slipMargins_range x).1.2
  have hquotient : Int.tdiv ((ref.natAbs : Int) * m.thresholdSlope x) 256 ≤ 32640 := by
    rw [Int.tdiv_eq_ediv_of_nonneg hnonneg]
    omega
  exact add_le_add hbase hquotient

/-! ## The automatic slip state (R49 to R51) -/

section
variable {a : SlipAxle} {slip enter spin exit : Int}

theorem SlipAxle.classify_of_grip (h : a.auto = .grip) : a.classify slip enter spin exit =
    if enter < slip then
      if 4 ≤ a.enterCount + 1 then { a with auto := .slip, enterCount := 0 }
      else { a with enterCount := a.enterCount + 1 }
    else { a with enterCount := 0 } := by
  simp only [SlipAxle.classify, h]

theorem SlipAxle.classify_of_slip (h : a.auto = .slip) : a.classify slip enter spin exit =
    if spin < slip then { a with auto := .spin, exitCount := 0 }
    else if slip < exit then
      if 8 ≤ a.exitCount + 1 then { a with auto := .grip, exitCount := 0 }
      else { a with exitCount := a.exitCount + 1 }
    else { a with exitCount := 0 } := by
  simp only [SlipAxle.classify, h]

theorem SlipAxle.classify_of_spin (h : a.auto = .spin) : a.classify slip enter spin exit =
    if slip ≤ enter then { a with auto := .slip, exitCount := 0 } else a := by
  simp only [SlipAxle.classify, h]

/-- A step of the state machine leaves the filter and the override, and its counts stay below the numbers of steps they
count to. -/
theorem SlipAxle.classify_keeps (a : SlipAxle) (slip enter spin exit : Int) :
    ((a.classify slip enter spin exit).taps = a.taps ∧ (a.classify slip enter spin exit).filtered = a.filtered ∧
      (a.classify slip enter spin exit).saturated = a.saturated ∧
      (a.classify slip enter spin exit).override = a.override) ∧
    (a.enterCount ≤ 3 → (a.classify slip enter spin exit).enterCount ≤ 3) ∧
    (a.exitCount ≤ 7 → (a.classify slip enter spin exit).exitCount ≤ 7) := by
  cases h : a.auto with
  | grip =>
    rw [SlipAxle.classify_of_grip h]
    split
    · split
      · exact ⟨⟨rfl, rfl, rfl, rfl⟩, fun _ => Nat.zero_le _, id⟩
      · exact ⟨⟨rfl, rfl, rfl, rfl⟩, fun _ => by dsimp only; omega, id⟩
    · exact ⟨⟨rfl, rfl, rfl, rfl⟩, fun _ => Nat.zero_le _, id⟩
  | slip =>
    rw [SlipAxle.classify_of_slip h]
    split
    · exact ⟨⟨rfl, rfl, rfl, rfl⟩, id, fun _ => Nat.zero_le _⟩
    · split
      · split
        · exact ⟨⟨rfl, rfl, rfl, rfl⟩, id, fun _ => Nat.zero_le _⟩
        · exact ⟨⟨rfl, rfl, rfl, rfl⟩, id, fun _ => by dsimp only; omega⟩
      · exact ⟨⟨rfl, rfl, rfl, rfl⟩, id, fun _ => Nat.zero_le _⟩
  | spin =>
    rw [SlipAxle.classify_of_spin h]
    split
    · exact ⟨⟨rfl, rfl, rfl, rfl⟩, id, fun _ => Nat.zero_le _⟩
    · exact ⟨⟨rfl, rfl, rfl, rfl⟩, id, id⟩

end

/-- Settles O24: the thresholds from the ranges of the calibration, the transitions by the state the machine is in. -/
theorem slipStatesFollowThresholds : Obligations.SlipStatesFollowThresholds := by
  refine ⟨fun m x ref => ?_, fun a slip enter spin exit hexit hspin => ?_⟩
  · intro enter spin exit
    have henter : 0 ≤ enter := enterThreshold_nonneg m x ref
    obtain ⟨-, ⟨hmargin0, hmargin1⟩, hhyst⟩ := m.slipMargins_range x
    have hspin : spin = enter + m.spinMargin x := rfl
    have hexit : exit = max 0 (enter - m.hysteresis x) := rfl
    refine ⟨rfl, rfl, fun _ => ?_, fun _ => ?_, ?_, ?_, ?_, fun h0 h1 => ?_⟩
    any_goals omega
    have hle : enter ≤ 65407 := enterThreshold_le m x h0 h1
    omega
  · intro b
    refine ⟨fun h h0 => ?_, fun h h0 h1 => ?_, fun h h0 h1 => ?_, fun h h0 => ?_, fun h h0 h1 => ?_, fun h h0 h1 => ?_,
      fun h h0 h1 => ?_, fun h h0 => ?_, fun h h0 => ?_⟩
    · exact (SlipAxle.classify_of_grip h).trans (if_neg (by omega))
    · exact (SlipAxle.classify_of_grip h).trans ((if_pos h0).trans (if_neg (by omega)))
    · exact (SlipAxle.classify_of_grip h).trans ((if_pos h0).trans (if_pos (by omega)))
    · exact (SlipAxle.classify_of_slip h).trans (if_pos h0)
    · exact (SlipAxle.classify_of_slip h).trans ((if_neg (by omega)).trans (if_neg (by omega)))
    · exact (SlipAxle.classify_of_slip h).trans ((if_neg (by omega)).trans ((if_pos h0).trans (if_neg (by omega))))
    · exact (SlipAxle.classify_of_slip h).trans ((if_neg (by omega)).trans ((if_pos h0).trans (if_pos (by omega))))
    · exact (SlipAxle.classify_of_spin h).trans (if_pos h0)
    · exact (SlipAxle.classify_of_spin h).trans (if_neg (by omega))

end Sys2Proof.Machine
end

section
/-! O59: the ranges, block by block: the DU, the IA, the CU, the SE, the AE, the links, and the pass in progress. -/

namespace Sys2Proof.Machine

/-! ## The ranges of each block -/

structure DemandRanges (u : DemandUnit) : Prop where
  torque : -24000 ≤ u.demand.torque ∧ u.demand.torque ≤ 24000
  held : -24000 ≤ u.heldDemand ∧ u.heldDemand ≤ 24000
  blend : 0 ≤ u.blend.start ∧ u.blend.start ≤ 1024
  blend_count : u.blend.count < 250
  load : u.load.tongue ≤ 2500
  counter : (∀ r ∈ u.counterRef, r < 16) ∧ u.badRun ≤ 2
  pending_mode : u.pendingMode ≠ some u.mode

def Arbiter.InRange (a : Arbiter) : Prop := ∀ e ∈ a.stack ++ a.waiting, EntryRanges e

structure AxleCapability.InRange (c : AxleCapability) : Prop where
  drive : c.drive ≤ 12000
  regen : c.regen ≤ 12000
  prevDrive : c.prevDrive ≤ 12000
  prevRegen : c.prevRegen ≤ 12000

structure SlipAxle.InRange (a : SlipAxle) : Prop where
  length : a.taps.length = 16
  taps : ∀ r ∈ a.taps, -32767 ≤ r ∧ r ≤ 32767
  filtered : -32767 ≤ a.filtered ∧ a.filtered ≤ 32767
  enter : a.enterCount ≤ 3
  exit : a.exitCount ≤ 7

structure SlipRanges (e : SlipEstimator) : Prop where
  axle : ∀ x, (e.axle.get x).InRange
  speed : ∀ x, -32768 ≤ e.reference.speed.get x ∧ e.reference.speed.get x ≤ 32767
  overrides : e.reference.freshness ≠ .fresh → ∀ x, (e.axle.get x).override = none

structure EngineRanges (e : Engine) : Prop where
  limits : e.limits.discharge ≤ 10000 ∧ e.limits.charge ≤ 10000
  record : RecordRanges e.record
  outputs : ∀ x, -12000 ≤ e.prev.get x ∧ e.prev.get x ≤ 12000
  factor : 0 ≤ e.lastFactor ∧ e.lastFactor ≤ 32768
  shortfall : e.shortfall ≤ 65535

/-- The pass in progress computed from ranges, in the mode that still holds. -/
def PassRanges (mode : Mode) (pass : Option Pass) : Prop :=
  ∀ p ∈ pass, SnapshotRanges p.snapshot ∧ p.result = p.snapshot.compute ∧ p.snapshot.mode = mode

structure BlockRanges (s : State) : Prop where
  demand : DemandRanges s.du
  lists : s.ia.InRange
  capability : ∀ x, (s.cu.get x).InRange
  slip : SlipRanges s.se
  engine : EngineRanges s.ae
  links : ∀ x, (s.links.get x).SpeedInRange
  pass : PassRanges s.du.mode s.ae.pass

theorem snapshot_drive (s : State) (x : Axle) :
    s.snapshot.drive.get x = (s.cu.get x).drive ∧ s.snapshot.regen.get x = (s.cu.get x).regen := by
  cases x <;> exact ⟨rfl, rfl⟩

theorem BlockRanges.snapshot {s : State} (h : BlockRanges s) : SnapshotRanges s.snapshot where
  torque := h.demand.torque
  held := h.demand.held
  blend := h.demand.blend
  blend_count := h.demand.blend_count
  stack e he := h.lists e (List.mem_append_left _ he)
  capability x := by
    obtain ⟨hd, hr⟩ := snapshot_drive s x
    rw [hd, hr]
    exact ⟨(h.capability x).drive, (h.capability x).regen⟩
  limits := h.engine.limits

theorem rangeLaws_iff (s : State) : RangeLaws s ↔ BlockRanges s := by
  constructor
  · intro h
    refine ⟨⟨h.snapshot.torque, h.snapshot.held, h.snapshot.blend, h.snapshot.blend_count, h.load, h.counter,
      h.pending_mode⟩, fun e he => ?_, fun x => ?_, ⟨fun x => ?_, fun x => (h.speeds x).1, h.overrides⟩,
      ⟨h.snapshot.limits, h.record, h.outputs, h.factor, h.shortfall⟩, fun x => (h.speeds x).2, h.pass⟩
    · exact (List.mem_append.1 he).elim (h.snapshot.stack e) (h.waiting e)
    · have hc := h.snapshot.capability x
      rw [(snapshot_drive s x).1, (snapshot_drive s x).2] at hc
      exact ⟨hc.1, hc.2, (h.previous x).1, (h.previous x).2⟩
    · obtain ⟨hlen, htaps, hfiltered, henter, hexit⟩ := h.slip x
      exact ⟨hlen, htaps, hfiltered, henter, hexit⟩
  · intro h
    exact {
      snapshot := h.snapshot
      waiting := fun e he => h.lists e (List.mem_append_right _ he)
      previous := fun x => ⟨(h.capability x).prevDrive, (h.capability x).prevRegen⟩
      record := h.engine.record
      pass := h.pass
      slip := fun x => ⟨(h.slip.axle x).length, (h.slip.axle x).taps, (h.slip.axle x).filtered, (h.slip.axle x).enter,
        (h.slip.axle x).exit⟩
      speeds := fun x => ⟨h.slip.speed x, h.links x⟩
      load := h.demand.load
      outputs := h.engine.outputs
      factor := h.engine.factor
      shortfall := h.engine.shortfall
      counter := h.demand.counter
      pending_mode := h.demand.pending_mode
      overrides := h.slip.overrides }

/-! ## The DU -/

theorem clampInt_range {lo hi : Int} (h : lo ≤ hi) (x : Int) : lo ≤ clampInt lo hi x ∧ clampInt lo hi x ≤ hi := by
  unfold clampInt
  omega

theorem demandRanges_reset : DemandRanges .reset :=
  ⟨by decide, by decide, by decide, by decide, by decide, by decide, by decide⟩

section
variable {s : State}

theorem DemandRanges.accepted (h : DemandRanges s.du) (torque : BitVec 16) (mode flags : Byte) {counter : Nat}
    (hc : counter < 16) : DemandRanges (s.acceptDemand torque mode flags counter).du :=
  { h with
    torque := clampInt_range (by decide) _
    counter := ⟨by rintro r ⟨⟩; exact hc, Nat.zero_le _⟩ }

/-- A wrong counter in FRESH counts, or is the third. -/
theorem State.wrongCounter_du (s : State) :
    (s.wrongCounter.du = { s.du with badRun := 0, demand := { s.du.demand with freshness := .stale } }) ∨
    (s.du.badRun + 1 < 3 ∧ s.wrongCounter.du = { s.du with badRun := s.du.badRun + 1 }) := by
  unfold State.wrongCounter
  split
  · exact .inl rfl
  · exact .inr ⟨by omega, rfl⟩

theorem DemandRanges.wrongCounter (h : DemandRanges s.du) : DemandRanges s.wrongCounter.du := by
  rcases s.wrongCounter_du with h' | ⟨hlt, h'⟩ <;> rw [h']
  · exact { h with torque := h.torque, counter := ⟨h.counter.1, Nat.zero_le _⟩ }
  · exact { h with counter := ⟨h.counter.1, by dsimp only; omega⟩ }

/-- The blend after a pass: as it was, ended, or one pass further. -/
theorem Pass.blendAfter_range {p : Pass} (hstart : 0 ≤ p.snapshot.blend.start ∧ p.snapshot.blend.start ≤ 1024)
    (hcount : p.snapshot.blend.count < 250) :
    (0 ≤ p.blendAfter.start ∧ p.blendAfter.start ≤ 1024) ∧ p.blendAfter.count < 250 := by
  unfold Pass.blendAfter
  dsimp only
  split
  · split
    · exact ⟨hstart, (by decide : 0 < 250)⟩
    · next hk => exact ⟨hstart, not_le.1 hk⟩
  · exact ⟨hstart, hcount⟩

theorem DemandRanges.completed {u : DemandUnit} (h : DemandRanges u) {p : Pass} (hp : SnapshotRanges p.snapshot)
    (hr : p.result = p.snapshot.compute) (hmode : p.snapshot.mode = u.mode) : DemandRanges (p.completeDemand u) := by
  obtain ⟨hstart, hcount⟩ := Pass.blendAfter_range hp.blend hp.blend_count
  have hheld : -24000 ≤ p.result.heldDemand ∧ p.result.heldDemand ≤ 24000 := by rw [hr]; exact hp.newHeld
  have hbase : 0 ≤ p.result.baseShare ∧ p.result.baseShare ≤ 1024 := by rw [hr]; exact hp.baseShare
  unfold Pass.completeDemand
  dsimp only
  split
  · exact ⟨h.torque, hheld, hstart, hcount, h.load, h.counter, h.pending_mode⟩
  · next m hm =>
    split
    · exact ⟨h.torque, hheld, hstart, hcount, h.load, h.counter, Option.some_ne_none _ ∘ Eq.symm⟩
    · next hne =>
      split
      · exact ⟨h.torque, hheld, hbase, by dsimp only; omega, h.load, h.counter, Option.some_ne_none _ ∘ Eq.symm⟩
      · exact ⟨h.torque, hheld, hstart, hcount, h.load, h.counter,
          fun hc => hne ((Option.some_inj.1 hc).trans hmode.symm)⟩

theorem Effect.demandRanges {t : State} (h : Effect s t) (hs : BlockRanges s) : DemandRanges t.du := by
  have hd := hs.demand
  cases h with
  | reset => exact demandRanges_reset
  | demandAccepted torque mode flags counter hc => exact hd.accepted torque mode flags hc
  | wrongCounter => exact hd.wrongCounter
  | thirdWrongCounter => exact { hd with counter := ⟨hd.counter.1, Nat.zero_le _⟩ }
  | resynchronised counter hc => exact { hd with counter := ⟨by rintro r ⟨⟩; exact hc, hd.counter.2⟩ }
  | demandStale | demandLost => exact { hd with torque := hd.torque }
  | loadTaken => exact { hd with load := Nat.min_le_right _ _ }
  | loadStale => exact { hd with load := hd.load }
  | passCompletes p hp =>
    obtain ⟨eu, h⟩ := s.completePass_frame p
    obtain ⟨hranges, hresult, hmode⟩ := hs.pass p hp
    rw [h]
    exact hd.completed hranges hresult hmode
  | initChecked =>
    obtain ⟨links, cu, eu, h⟩ := s.initChecked_frame
    rw [h]
    exact hd
  | arbitrated | refused | expired => rw [s.arbitrate_du]; exact hd
  | serviceEntered =>
    rw [State.respond_du, State.enterService, State.arbitrate_du]
    exact hd
  | serviceLeft =>
    rcases s.leaveService_cases _ with ⟨-, h⟩ | ⟨-, h⟩ <;> rw [h] <;> exact hd
  | links h =>
    obtain ⟨links, cu, se, eu, rfl⟩ := h.frame
    exact hd
  | _ => exact hd

end

/-! ## The IA -/

theorem State.levelOf_le (s : State) (src : Source) (f : InterventionFields) : s.levelOf src f ≤ 7 := by
  have hrange : (s.levelRange src).1 ≤ 7 ∧ (s.levelRange src).2 ≤ 7 := by
    unfold State.levelRange
    dsimp only
    split
    · exact ⟨Nat.min_le_right _ _, Nat.min_le_right _ _⟩
    · split <;> decide
  unfold State.levelOf clampNat
  omega

theorem InterventionKind.valueOf_le (k : InterventionKind) (f : InterventionFields) :
    k.valueOf f ≤ 12000 ∧ (k = .shareHold → k.valueOf f ≤ 1024) := by
  cases k <;> simp [InterventionKind.valueOf]

theorem holdOf_range (f : InterventionFields) : 10 ≤ holdOf f ∧ holdOf f ≤ 500 := by
  unfold holdOf clampNat
  omega

section
variable {a : Arbiter}

theorem Arbiter.entryOf_ranges (a : Arbiter) (src : Source) (k : InterventionKind) {level : Nat} (h : level ≤ 7)
    (f : InterventionFields) : EntryRanges (a.entryOf src k level f) :=
  ⟨h, (k.valueOf_le f).1, (k.valueOf_le f).2, holdOf_range f⟩

theorem EntryRanges.update {e : Entry} (h : EntryRanges e) (f : InterventionFields) : EntryRanges (e.update f) :=
  ⟨h.1, (e.kind.valueOf_le f).1, (e.kind.valueOf_le f).2, holdOf_range f⟩

theorem mem_seekPlace {l : List Entry} {e x : Entry} (h : x ∈ (seekPlace l e).1) : x = e ∨ x ∈ l := by
  rcases seekPlace_cases l e with ⟨-, h'⟩ | ⟨-, last, -, -, h'⟩ | ⟨-, last, -, -, h'⟩ <;> rw [h'] at h
  · simpa using (insertWaiting_perm e l).mem_iff.1 h
  · rcases List.mem_cons.1 ((insertWaiting_perm e l.dropLast).mem_iff.1 h) with rfl | hx
    · exact .inl rfl
    · exact .inr (List.mem_of_mem_dropLast hx)
  · exact .inr h

/-- Placement keeps no entry but those held and the new one. -/
theorem Arbiter.mem_place {e x : Entry} (h : x ∈ (a.place e).ia.stack ++ (a.place e).ia.waiting) :
    x = e ∨ x ∈ a.stack ++ a.waiting := by
  unfold Arbiter.place at h
  split at h
  · split at h
    · simpa [or_assoc] using h
    · split at h
      · next bottom hb =>
        rw [Arbiter.preempt_ia, List.cons_append, List.mem_cons, List.mem_append] at h
        rcases h with h | h | h
        · exact .inl h
        · exact .inr (List.mem_append_left _ (List.mem_of_mem_dropLast h))
        · rcases mem_seekPlace h with rfl | h
          · exact .inr (List.mem_append_left _ (List.mem_of_getLast? hb))
          · exact .inr (List.mem_append_right _ h)
      · exact .inr h
  · unfold Arbiter.queue at h
    dsimp only at h
    split at h
    · rcases List.mem_append.1 h with h | h
      · exact .inr (List.mem_append_left _ h)
      · exact (mem_seekPlace h).imp_right (List.mem_append_right _)
    · exact .inr h

/-- Removal with admission keeps no entry but those held. -/
theorem Arbiter.mem_remove {src : Source} {tag : Byte} {x : Entry}
    (h : x ∈ (a.remove src tag).1.stack ++ (a.remove src tag).1.waiting) : x ∈ a.stack ++ a.waiting := by
  have hkept : x ∈ dropEntry a.stack src tag ++ dropEntry a.waiting src tag → x ∈ a.stack ++ a.waiting := fun h =>
    ((dropEntry_sublist _ _ _).append (dropEntry_sublist _ _ _)).subset h
  unfold Arbiter.remove at h
  dsimp only at h
  split at h
  · exact hkept ((admitFrom_perm _ _).mem_iff.1 h)
  · exact hkept h

theorem Arbiter.InRange.place {e : Entry} (h : a.InRange) (he : EntryRanges e) : (a.place e).ia.InRange := by
  intro x hx
  rcases Arbiter.mem_place hx with rfl | hx
  · exact he
  · exact h x hx

theorem Arbiter.InRange.remove (h : a.InRange) (src : Source) (tag : Byte) : (a.remove src tag).1.InRange :=
  fun x hx => h x (Arbiter.mem_remove hx)

theorem Arbiter.InRange.request (h : a.InRange) (src : Source) (k : InterventionKind) {level : Nat} (hl : level ≤ 7)
    (f : InterventionFields) : (a.request src k level f).ia.InRange := by
  unfold Arbiter.request
  split
  · exact h.place (a.entryOf_ranges src k hl f)
  · split
    · intro x hx
      obtain ⟨e, he, rfl⟩ : ∃ e ∈ a.stack ++ a.waiting, (if e.is src f.tag then e.update f else e) = x := by
        simpa [updateEntries, ← List.map_append, or_and_right, exists_or] using hx
      split
      · exact (h e he).update f
      · exact h e he
    · exact (h.remove src f.tag).place (Arbiter.entryOf_ranges _ src k hl f)

theorem Arbiter.InRange.act (h : a.InRange) (src : Source) (action : Byte) (f : InterventionFields) {level : Nat}
    (hl : level ≤ 7) : (Arbiter.act src action f a level).ia.InRange := by
  unfold Arbiter.act
  split
  · unfold Arbiter.release
    split
    · exact h
    · exact h.remove src f.tag
  · exact h.request src _ hl f
  · exact h.request src _ hl f
  · exact h.request src _ hl f
  · exact h.request src _ hl f
  · exact h

theorem Arbiter.InRange.expire (h : a.InRange) (src : Source) (tag : Byte) : (a.expire src tag).ia.InRange := by
  unfold Arbiter.expire
  split
  · exact h
  · exact h.remove src tag

end

theorem Effect.listRanges {s t : State} (h : Effect s t) (hs : s.ia.InRange) : t.ia.InRange := by
  rcases h.ia_cases with h | h | ⟨-, src, action, f, h⟩ | ⟨src, tag, h⟩ | h <;> rw [h]
  · exact hs
  · exact fun _ he => (List.not_mem_nil he).elim
  · exact hs.act src action f (s.levelOf_le src f)
  · exact hs.expire src tag
  · exact fun _ he => (List.not_mem_nil he).elim

/-! ## The CU -/

theorem capability_reset : AxleCapability.reset.InRange := ⟨by decide, by decide, by decide, by decide⟩

theorem AxleCapability.InRange.report {c : AxleCapability} (h : c.InRange) (drive regen : Nat) : (c.report drive regen).InRange :=
  ⟨(Nat.min_le_right _ _).trans h.prevDrive, (Nat.min_le_right _ _).trans h.prevRegen, Nat.min_le_right _ _,
    Nat.min_le_right _ _⟩

theorem AxleCapability.InRange.with_inverter {c : AxleCapability} (h : c.InRange) (v : InverterState) :
    AxleCapability.InRange { c with inverter := v } := ⟨h.drive, h.regen, h.prevDrive, h.prevRegen⟩

def CapabilitiesInRange (s : State) : Prop := ∀ x, (s.cu.get x).InRange

section
variable {s : State}

theorem CapabilitiesInRange.set (h : CapabilitiesInRange s) {x : Axle} {c : AxleCapability} (hc : c.InRange) :
    ∀ y, ((s.cu.set x c).get y).InRange := axles_forall_set (P := fun _ (c : AxleCapability) => c.InRange) h hc

theorem CapabilitiesInRange.settled (h : CapabilitiesInRange s) (x : Axle) :
    CapabilitiesInRange (settledSuperframe s x) := by
  intro y
  unfold settledSuperframe
  dsimp only
  rw [latchedIf_cu]
  dsimp only
  split
  · exact h.set ((h x).with_inverter _) y
  · exact h y

theorem CapabilitiesInRange.slotResult (h : CapabilitiesInRange s) (x : Axle) (good bit : Bool) :
    CapabilitiesInRange (s.slotResult x good bit) := by
  cases good with
  | false =>
    intro y
    rw [s.slotResult_bad, afterBadSlot, latchedIf_cu, latchedIf_cu]
    dsimp only
    split
    · exact h.set capability_reset y
    · exact h y
  | true =>
    rw [s.slotResult_good]
    unfold afterGoodSlot
    dsimp only
    split
    · refine CapabilitiesInRange.settled ?_ x
      exact h
    · exact h

theorem State.takeSample_cu (s : State) (x : Axle) (v : Int) : (s.takeSample x v).cu = s.cu := by
  obtain ⟨se, eu, h⟩ := s.takeSample_frame x v
  rw [h]

theorem CapabilitiesInRange.handReport (h : CapabilitiesInRange s) (x : Axle) (r : ReportFrame) :
    CapabilitiesInRange (s.handReport x r) := by
  intro y
  unfold State.handReport
  dsimp only
  split
  · rw [State.takeSample_cu]
    exact h.set ((h x).report _ _) y
  · exact h y

end

theorem capabilitiesInRange_kept : LinkKept CapabilitiesInRange where
  move hm hs := by
    cases hm with
    | result x good bit => exact hs.slotResult x good bit
    | voided => exact hs
    | handed x bytes => exact hs.handReport x _
  opened _ _ _ _ hs := hs

theorem Effect.capabilities {s t : State} (h : Effect s t) (hs : CapabilitiesInRange s) : CapabilitiesInRange t := by
  cases h with
  | reset => exact fun x => by cases x <;> exact capability_reset
  | links h => exact capabilitiesInRange_kept.effect h hs
  | initChecked =>
    have hfront := capabilitiesInRange_kept.moves (s.leaveInit.openSlot_moves .front 0 0#32) hs
    exact capabilitiesInRange_kept.moves (State.openSlot_moves _ .rear 0 0#32) hfront
  | passCompletes p =>
    obtain ⟨eu, h⟩ := s.completePass_frame p
    rw [h]
    exact hs
  | wrongCounter =>
    unfold State.wrongCounter
    split <;> exact hs
  | arbitrated | refused | expired =>
    intro x
    rw [s.arbitrate_cu]
    exact hs x
  | serviceEntered =>
    intro x
    rw [State.respond_cu, State.enterService, State.arbitrate_cu]
    exact hs x
  | serviceLeft =>
    rcases s.leaveService_cases _ with ⟨-, h⟩ | ⟨-, h⟩ <;> rw [h] <;> exact hs
  | _ => exact hs

/-! ## The SE -/

theorem slipAxle_reset : SlipAxle.reset.InRange := ⟨by decide, by decide, by decide, by decide, by decide⟩

theorem SlipAxle.InRange.step {a : SlipAxle} (h : a.InRange) (m : Image) (x : Axle) (sigma speed reference : Int) :
    (a.step m x sigma speed reference).InRange := by
  have hraw : -32767 ≤ rawSample speed reference ∧ rawSample speed reference ≤ 32767 := saturate_range _
  obtain ⟨⟨htaps, hfiltered, -, -⟩, henter, hexit⟩ := (a.filter m x (rawSample speed reference)).classify_keeps
    (sigma * (a.filter m x (rawSample speed reference)).filtered) (enterThreshold m x reference)
    (spinThreshold m x reference) (exitThreshold m x reference)
  refine ⟨?_, ?_, ?_, henter h.enter, hexit h.exit⟩
  · refine (congrArg List.length htaps).trans ?_
    simp [SlipAxle.filter, shiftTaps_eq, h.length]
  · rw [SlipAxle.step, htaps]
    intro r hr
    rcases List.mem_cons.1 hr with rfl | hr
    · exact hraw
    · exact h.taps r (List.mem_of_mem_take hr)
  · rw [SlipAxle.step, hfiltered]
    exact saturate_range _

section
variable {s : State}

theorem SlipRanges.takeSample (h : SlipRanges s.se) (x : Axle) (speed : Int) : SlipRanges (s.takeSample x speed).se := by
  unfold State.takeSample
  dsimp only
  split
  · next hfresh =>
    rw [State.raiseIf_se, State.raiseIf_se]
    exact ⟨axles_forall_set (P := fun _ (a : SlipAxle) => a.InRange) h.axle ((h.axle x).step _ _ _ _ _), h.speed,
      fun hne => absurd hfresh hne⟩
  · exact h

theorem SlipRanges.handReport (h : SlipRanges s.se) (x : Axle) (r : ReportFrame) : SlipRanges (s.handReport x r).se := by
  unfold State.handReport
  dsimp only
  split
  · refine SlipRanges.takeSample ?_ x r.speed
    exact h
  · exact h

end

theorem slipRanges_kept : LinkKept (fun s => SlipRanges s.se) where
  move {s t} hm hs := by
    cases hm with
    | result x good bit =>
      obtain ⟨links, cu, eu, h⟩ := s.slotResult_frame x good bit
      rw [h]
      exact hs
    | voided => exact hs
    | handed x bytes => exact hs.handReport x _
  opened _ _ _ _ hs := hs

section
variable {e : SlipEstimator}

theorem SlipAxle.InRange.with_override {a : SlipAxle} (h : a.InRange) (v : Option SlipState) :
    SlipAxle.InRange { a with override := v } := ⟨h.length, h.taps, h.filtered, h.enter, h.exit⟩

theorem SlipRanges.takeReference (h : SlipRanges e) (front rear : BitVec 16) :
    SlipRanges (e.takeReference front.toInt rear.toInt) where
  axle x := by
    unfold SlipEstimator.takeReference
    dsimp only
    split
    · exact h.axle x
    · cases x <;> exact slipAxle_reset.with_override _
  speed x := by cases x <;> exact toInt_range _
  overrides hne := absurd rfl hne

theorem SlipRanges.stale (h : SlipRanges e) : SlipRanges e.referenceStale where
  axle x := by
    cases x
    · exact (h.axle .front).with_override none
    · exact (h.axle .rear).with_override none
  speed := h.speed
  overrides _ x := by cases x <;> rfl

theorem SlipAxle.InRange.setOverride {a : SlipAxle} (h : a.InRange) (named : Bool) (code : Option SlipState) :
    (a.setOverride named code).InRange := by
  unfold SlipAxle.setOverride
  split
  · exact h.with_override code
  · exact h

theorem SlipRanges.takeOverride (h : SlipRanges e) (axleCode code : Byte) : SlipRanges (e.takeOverride axleCode code) := by
  unfold SlipEstimator.takeOverride
  split
  · split
    · next hfresh =>
      refine ⟨fun x => ?_, h.speed, fun hne => absurd hfresh hne⟩
      cases x
      · exact (h.axle .front).setOverride _ _
      · exact (h.axle .rear).setOverride _ _
    · exact h
  · exact h

end

theorem slipRanges_reset : SlipRanges .reset where
  axle x := by cases x <;> exact slipAxle_reset
  speed x := by cases x <;> decide
  overrides _ x := by cases x <;> rfl

theorem Effect.slipRanges {s t : State} (h : Effect s t) (hs : SlipRanges s.se) : SlipRanges t.se := by
  cases h with
  | reset => exact slipRanges_reset
  | referenceTaken front rear => exact hs.takeReference front rear
  | referenceStale => exact hs.stale
  | overrideTaken axleCode code => exact hs.takeOverride axleCode code
  | links h => exact slipRanges_kept.effect h hs
  | initChecked =>
    obtain ⟨links, cu, eu, h⟩ := s.initChecked_frame
    rw [h]
    exact hs
  | passCompletes p =>
    obtain ⟨eu, h⟩ := s.completePass_frame p
    rw [h]
    exact hs
  | wrongCounter =>
    unfold State.wrongCounter
    split <;> exact hs
  | arbitrated | refused | expired => rw [s.arbitrate_se]; exact hs
  | serviceEntered =>
    rw [State.respond_se, State.enterService, State.arbitrate_se]
    exact hs
  | serviceLeft =>
    rcases s.leaveService_cases _ with ⟨-, h⟩ | ⟨-, h⟩ <;> rw [h] <;> exact hs
  | _ => exact hs

/-! ## The AE and the pass in progress -/

theorem recordRanges_reset : RecordRanges Engine.reset.record :=
  ⟨fun x => by cases x <;> decide, by decide, by decide, by decide, by decide, by decide⟩

theorem engineRanges_reset : EngineRanges .reset :=
  ⟨by decide, recordRanges_reset, fun x => by cases x <;> decide, by decide, by decide⟩

theorem EngineRanges.completed {e : Engine} (h : EngineRanges e) {p : Pass} (hp : SnapshotRanges p.snapshot)
    (hr : p.result = p.snapshot.compute) : EngineRanges (p.completeEngine e) := by
  have hrecord : RecordRanges p.result.record := by rw [hr]; exact hp.record
  refine ⟨h.limits, hrecord, hrecord.output, hrecord.factor, ?_⟩
  show p.shortfallAfter ≤ 65535
  unfold Pass.shortfallAfter
  split
  · exact Nat.min_le_right _ _
  · exact Nat.zero_le _

theorem noTorque_range (x : Axle) : -12000 ≤ (⟨0, 0⟩ : Axles Int).get x ∧ (⟨0, 0⟩ : Axles Int).get x ≤ 12000 := by
  cases x <;> decide

theorem EngineRanges.enterService {e : Engine} (h : EngineRanges e) : EngineRanges e.enterService :=
  { h with
    record := { h.record with output := noTorque_range }
    outputs := noTorque_range
    shortfall := Nat.zero_le _ }

theorem Effect.engineRanges {s t : State} (h : Effect s t) (hs : BlockRanges s) :
    EngineRanges t.ae ∧ PassRanges t.du.mode t.ae.pass := by
  have he := hs.engine
  have hp := hs.pass
  have hnone (mode : Mode) : PassRanges mode none := fun p hp => (Option.not_mem_none p hp).elim
  cases h with
  | reset => exact ⟨engineRanges_reset, hnone _⟩
  | passBegins =>
    refine ⟨{ he with limits := he.limits }, ?_⟩
    rintro p ⟨⟩
    exact ⟨hs.snapshot, rfl, rfl⟩
  | passCompletes p h =>
    obtain ⟨hranges, hresult, -⟩ := hp p h
    obtain ⟨eu, h⟩ := s.completePass_frame p
    rw [h]
    exact ⟨he.completed hranges hresult, hnone _⟩
  | limitsTaken => exact ⟨{ he with limits := ⟨Nat.min_le_right _ _, Nat.min_le_right _ _⟩ }, hp⟩
  | limitsStale => exact ⟨{ he with limits := he.limits }, hp⟩
  | serviceEntered =>
    rw [State.respond_ae, State.enterService, State.arbitrate_ae]
    exact ⟨he.enterService, hnone _⟩
  | initChecked =>
    obtain ⟨links, cu, eu, h⟩ := s.initChecked_frame
    rw [h]
    exact ⟨{ he with limits := he.limits }, hp⟩
  | serviceLeft =>
    rcases s.leaveService_cases _ with ⟨-, h⟩ | ⟨-, h⟩ <;> rw [h]
    · exact ⟨{ he with limits := he.limits }, hp⟩
    · exact ⟨he, hp⟩
  | wrongCounter =>
    unfold State.wrongCounter
    split <;> exact ⟨he, hp⟩
  | arbitrated | refused | expired =>
    rw [s.arbitrate_ae, s.arbitrate_du]
    exact ⟨he, hp⟩
  | links h =>
    obtain ⟨links, cu, se, eu, rfl⟩ := h.frame
    exact ⟨he, hp⟩
  | _ => exact ⟨he, hp⟩

/-! ## The links -/

theorem Effect.linkSpeeds {s t : State} (h : Effect s t) (hs : ∀ x, (s.links.get x).SpeedInRange) :
    ∀ x, (t.links.get x).SpeedInRange := by
  have hset {x : Axle} {l : Link} (hl : l.SpeedInRange) : ∀ y, ((s.links.set x l).get y).SpeedInRange :=
    axles_forall_set (P := fun _ (l : Link) => l.SpeedInRange) hs hl
  rcases h.links_cases with h | h | ⟨-, rfl⟩ | ⟨x, h⟩ | ⟨-, x, kind, h⟩ | ⟨-, h⟩ | h
  · rwa [h]
  · rw [h]
    intro x
    cases x <;> exact ⟨by decide, by decide⟩
  · intro x
    refine (s.initChecked_links x).1.speed ?_
    rw [s.leaveInit_get]
    exact hs x
  · rw [h]
    exact hset (x := x) (hs x)
  · rw [h]
    exact hset (x := x) (hs x)
  · have hopen {l : Link} (hl : l.SpeedInRange) : l.openLoop.SpeedInRange := by
      unfold Link.openLoop
      split <;> exact hl
    rw [h]
    intro x
    cases x
    · exact hopen (hs .front)
    · exact hopen (hs .rear)
  · exact fun x => (h.links x).1.speed (hs x)

/-! ## Every step -/

theorem Effect.blockRanges {s t : State} (h : Effect s t) (hs : BlockRanges s) : BlockRanges t where
  demand := h.demandRanges hs
  lists := h.listRanges hs.lists
  capability := h.capabilities hs.capability
  slip := h.slipRanges hs.slip
  engine := (h.engineRanges hs).1
  links := h.linkSpeeds hs.links
  pass := (h.engineRanges hs).2

/-- Settles O59: each block's ranges, over the effects that touch the block. -/
theorem stepKeepsRanges : Obligations.StepKeepsRanges := by
  intro s t hs hstep
  rw [rangeLaws_iff] at hs ⊢
  refine step_keeps (Law := BlockRanges) (fun s rest h => ?_) Effect.blockRanges hs hstep
  exact ⟨h.demand, h.lists, h.capability, h.slip, h.engine, h.links, h.pass⟩

end Sys2Proof.Machine
end

section
/-! Resets, the beginning and the completion of a pass, and EVENT CONTROL: O3, O4, O8, O9, O10, O41, O60. -/

namespace Sys2Proof.Machine

/-! ## Resets -/

/-- A reset clears every volatile piece, by the values of the chapters. -/
theorem State.enterReset_eq (s : State) (kind : ResetKind) : s.enterReset kind = volatileCleared s
    ({ s.osc with device := .init, cause := s.osc.causeOf kind, checking := false }.setHold kind true)
    (s.store.abandon s.su.operation) := rfl

theorem OperatingState.causeOf_power (o : OperatingState) : o.causeOf .power = .power := by
  unfold OperatingState.causeOf
  split <;> simp

theorem OperatingState.causeOf_pin (o : OperatingState) : o.causeOf .pin = if o.supplyLow then .power else .pin := by
  unfold OperatingState.causeOf OperatingState.held
  cases o.supplyLow <;> simp

theorem OperatingState.causeOf_of_not_held {o : OperatingState} (h : o.held = false) (kind : ResetKind) :
    o.causeOf kind = kind := by
  rw [OperatingState.causeOf, if_neg (by rw [h]; decide)]

theorem State.beginReset_of_not_holds {s : State} {kind : ResetKind} (h : s.osc.holds kind = false) :
    s.beginReset kind = s.enterReset kind := if_neg (by rw [h]; decide)

theorem State.endReset_of_holds {s : State} {kind : ResetKind} (h : s.osc.holds kind = true) :
    s.endReset kind = { s with
      osc := { s.osc.setHold kind false with checking := !(s.osc.setHold kind false).held } } := if_pos h

/-- Settles O3: a reset by `State.enterReset_eq`, its cause by the conditions that hold; a release by the remaining ones. -/
theorem resetsClearVolatileState : Obligations.ResetsClearVolatileState := by
  refine ⟨fun s h => ?_, fun s h => ?_, fun s h => ?_, fun s h => ?_, fun s h => ?_⟩
  · show Host.Outcome.next (s.beginReset .power) = _
    rw [State.beginReset_of_not_holds (kind := .power) h, State.enterReset_eq, OperatingState.causeOf_power]
    rfl
  · show Host.Outcome.next (s.beginReset .pin) = _
    rw [State.beginReset_of_not_holds (kind := .pin) h, State.enterReset_eq, OperatingState.causeOf_pin]
    rfl
  · show Host.Outcome.next (s.endReset .power) = _
    rw [State.endReset_of_holds (kind := .power) h]
    rfl
  · show Host.Outcome.next (s.endReset .pin) = _
    rw [State.endReset_of_holds (kind := .pin) h]
    simp [OperatingState.setHold, OperatingState.held]
  · show Host.Outcome.next (s.endReset .restart) = _
    rw [State.endReset_of_holds (kind := .restart) h]
    simp [OperatingState.setHold, OperatingState.held]

theorem exec_transmissionSuccess_of_response {s : State} {t : Transmission} (h : s.cp.transmission = some t)
    (ho : t.origin = .response) : exec .transmissionSuccess s = .next
      (State.responseSent { s with cp := { s.cp with transmission := none, errorCount := s.cp.errorCount - 1 } }) := by
  simp [exec, execTransmissionSuccess, h, ho, Port.sentFrom]

/-- The head of the response queue leaves it; a RESTART's DONE begins the reset on what is left. -/
theorem State.responseSent_of_cons {s : State} {r : Response} {rest : List Response} (h : s.su.responses = r :: rest) :
    s.responseSent =
      if r.restartDone then State.beginReset { s with su := { s.su with responses := rest } } .restart
      else { s with su := { s.su with responses := rest } } := by
  unfold State.responseSent
  rw [h]
  rfl

theorem Response.restartDone_iff (r : Response) : r.restartDone = true ↔ r.code = 0x30#8 ∧ r.result = .done := by
  simp [Response.restartDone, Service.code]

/-- Settles O4: the reset by `State.enterReset_eq` with no other condition holding. -/
theorem restartResetFollowsItsResponse : Obligations.RestartResetFollowsItsResponse := by
  intro s t r rest ht ho hr
  have hsent := State.responseSent_of_cons
    (s := { s with cp := { s.cp with transmission := none, errorCount := s.cp.errorCount - 1 } }) hr
  rw [exec_transmissionSuccess_of_response ht ho, hsent]
  refine ⟨fun hdone hsupply hpin hperiod => ?_, fun hnot => ?_⟩
  · have hcause : s.osc.causeOf .restart = .restart :=
      OperatingState.causeOf_of_not_held (by simp [OperatingState.held, hsupply, hpin, hperiod]) _
    have hosc : { s.osc with device := .init, cause := s.osc.causeOf .restart, checking := false }.setHold .restart true =
        { device := .init, cause := .restart, supplyLow := false, pinLow := false, restartPeriod := true,
          checking := false } := by
      simp only [OperatingState.setHold, hcause, hsupply, hpin]
    refine (congrArg Host.Outcome.next ((if_pos (r.restartDone_iff.2 hdone)).trans
      (State.beginReset_of_not_holds (kind := .restart) ?_))).trans ?_
    · exact hperiod
    · exact congrArg (fun o => Host.Outcome.next (volatileCleared s o (s.store.abandon s.su.operation))) hosc
  · rw [if_neg (mt r.restartDone_iff.1 hnot)]

/-! ## The state after a reset -/

theorem storeLaws_reset : StoreLaws State.reset := ⟨by decide, fun _ _ _ _ hc => (List.not_mem_nil hc).elim, trivial⟩

theorem capacityLaws_reset : CapacityLaws State.reset :=
  (capacityLaws_iff _).2 ⟨⟨Nat.zero_le _, Nat.zero_le _⟩, ⟨Nat.zero_le _, Nat.zero_le _, fun h => absurd h (by decide)⟩,
    fun x => by cases x <;> exact Link.reset_counted⟩

theorem deviceLaws_reset : DeviceLaws State.reset :=
  ⟨fun _ => rfl, fun _ => rfl, fun x => by cases x <;> exact iff_of_true rfl rfl,
    fun x => by cases x <;> exact iff_of_true rfl rfl, fun x hx => by cases x <;> exact absurd rfl hx, by decide,
    fun _ hp => (Option.not_mem_none _ hp).elim, fun hop => absurd hop (by decide), fun _ _ => ⟨rfl, rfl⟩⟩

theorem blockRanges_reset : BlockRanges State.reset where
  demand := demandRanges_reset
  lists _ he := (List.not_mem_nil he).elim
  capability x := by cases x <;> exact capability_reset
  slip := slipRanges_reset
  engine := engineRanges_reset
  links x := by cases x <;> exact ⟨by decide, by decide⟩
  pass _ hp := (Option.not_mem_none _ hp).elim

/-- Settles O60: each law on the values after a reset. -/
theorem resetMeetsEveryLaw : Obligations.ResetMeetsEveryLaw :=
  ⟨by unfold AttentionLaw; decide, listLaws_empty 0, storeLaws_reset, capacityLaws_reset, deviceLaws_reset,
    fun _ => ⟨rfl, rfl⟩, by unfold SlotsTogether; decide, (rangeLaws_iff _).2 blockRanges_reset⟩

/-! ## The pass -/

/-- Settles O8: a pass that may begin takes the snapshot, whose fields are those of the blocks. -/
theorem passBeginsFromSnapshot : Obligations.PassBeginsFromSnapshot :=
  ⟨fun _ => rfl, fun s ht hp =>
    ⟨⟨s.snapshot, s.snapshot.compute⟩, congrArg Host.Outcome.next (if_pos ⟨ht, hp⟩), rfl, rfl⟩⟩

/-- The bit of an event that latches, and no other, is added to the Event Set. -/
theorem latchedIf_getLsbD (s : State) (onset : Bool) {k : Nat} (hk : k < 16) (b : Nat) :
    (latchedIf s onset k).eu.events.getLsbD b = (s.eu.events.getLsbD b || (onset && decide (b = k))) := by
  cases onset with
  | false => simp [latchedIf]
  | true =>
    simp only [latchedIf, latched, if_true, BitVec.getLsbD_or, BitVec.getLsbD_shiftLeft, BitVec.getLsbD_one,
      Bool.true_and]
    congr 1
    rcases Nat.lt_trichotomy b k with h | rfl | h
    · simp [h, h.ne]
    · simp [hk]
    · simp [h.ne', Nat.sub_ne_zero_of_lt h]

theorem latchedIf_mask (s : State) (onset : Bool) (k : Nat) : (latchedIf s onset k).eu.mask = s.eu.mask := by
  cases onset <;> rfl

theorem Snapshot.entersActive_iff (p : Snapshot) : p.entersActive = true ↔
    p.demand.freshness = .fresh ∧ p.demand.driveEnable = true ∧
      (((p.link.get .front = .up ∨ p.link.get .front = .impaired) ∧
        (p.inverter.get .front = .ready ∨ p.inverter.get .front = .run ∨ p.inverter.get .front = .derate)) ∨
       ((p.link.get .rear = .up ∨ p.link.get .rear = .impaired) ∧
        (p.inverter.get .rear = .ready ∨ p.inverter.get .rear = .run ∨ p.inverter.get .rear = .derate))) := by
  simp [Snapshot.entersActive, and_assoc, or_assoc]

theorem Pass.leavesActive_iff (p : Pass) : p.leavesActive = true ↔
    (p.snapshot.demand.driveEnable = false ∨ p.snapshot.demand.freshness = .lost) ∧
      p.result.record.output = ⟨0, 0⟩ := by
  simp [Pass.leavesActive]

theorem Pass.shortfallOnset_iff (p : Pass) : p.shortfallOnset = true ↔
    p.snapshot.image.shortfallThreshold ≤ (p.result.record.unserved.natAbs : Int) ∧ p.snapshot.shortfall = 49 := by
  unfold Pass.shortfallOnset Pass.shortfallAfter
  rw [Bool.and_eq_true, decide_eq_true_eq, decide_eq_true_eq]
  split
  · next h => exact ⟨fun hs => ⟨h, hs.2⟩, fun hs => ⟨by omega, hs.2⟩⟩
  · next h => exact ⟨fun hs => absurd hs.1 (by decide), fun hs => absurd hs.1 h⟩

theorem exec_passCompletion {s : State} {p : Pass} (h : s.ae.pass = some p) :
    exec .passCompletion s = .next (s.completePass p) := by
  simp [exec, execPassCompletion, h]

theorem State.completePass_eu (s : State) (p : Pass) : ∃ u, u.eu = s.eu ∧
    (s.completePass p).eu = (latchedIf (latchedIf u (p.powerScaled s.ae) 12) p.shortfallOnset 13).eu := by
  refine ⟨{ s with
    osc := { s.osc with device := p.nextDevice s.osc.device }
    du := p.completeDemand s.du
    ae := p.completeEngine s.ae }, rfl, ?_⟩
  rw [State.completePass, State.raiseIf_eq_latchedIf, State.raiseIf_eq_latchedIf]
  rfl

/-- The Event Set after a pass: POWER SCALED and SHORTFALL at their onsets, all else as before. -/
theorem State.completePass_events (s : State) (p : Pass) (b : Nat) : (s.completePass p).eu.events.getLsbD b =
    (s.eu.events.getLsbD b || (p.powerScaled s.ae && decide (b = 12)) || (p.shortfallOnset && decide (b = 13))) := by
  obtain ⟨u, hu, h⟩ := s.completePass_eu p
  rw [h, latchedIf_getLsbD _ _ (by decide), latchedIf_getLsbD _ _ (by decide), hu]

theorem State.completePass_mask (s : State) (p : Pass) : (s.completePass p).eu.mask = s.eu.mask := by
  obtain ⟨u, hu, h⟩ := s.completePass_eu p
  rw [h, latchedIf_mask, latchedIf_mask, hu]

/-- Settles O9: the AE and the DU by their completions, the device state by the entry and exit conditions, the Event Set by
the two onsets, all else by `State.completePass_frame`. -/
theorem passCompletionPublishesResults : Obligations.PassCompletionPublishesResults := by
  intro s p h snap r usable entry exit short
  have hentry : snap.entersActive = true ↔ entry := snap.entersActive_iff
  have hexit : p.leavesActive = true ↔ exit := p.leavesActive_iff
  have hevents := s.completePass_events p
  have hmask := s.completePass_mask p
  refine ⟨_, exec_passCompletion h, ?_⟩
  obtain ⟨eu, hframe⟩ := s.completePass_frame p
  rw [hframe] at hevents hmask ⊢
  refine ⟨rfl, rfl, rfl, rfl, rfl, rfl, fun hs => if_pos hs, fun hs => if_neg hs, fun hin => ?_, fun hout => ?_,
    fun hin hout => ?_, ?_, ?_, fun b h12 h13 => ?_, hmask, p.completeDemand_heldDemand s.du, rfl, rfl, rfl, rfl, rfl, rfl,
    rfl, rfl, rfl, rfl, rfl⟩
  · have hnext : p.nextDevice s.osc.device = .active := if_pos ⟨hin.1, hentry.2 hin.2⟩
    dsimp only
    rw [hnext]
  · have hnot : ¬(snap.device = .standby ∧ snap.entersActive = true) :=
      fun hc => absurd (hout.1.symm.trans hc.1) (by decide)
    have hnext : p.nextDevice s.osc.device = .standby := (if_neg hnot).trans (if_pos ⟨hout.1, hexit.2 hout.2⟩)
    dsimp only
    rw [hnext]
  · have hnext : p.nextDevice s.osc.device = s.osc.device :=
      (if_neg fun hc => hin ⟨hc.1, hentry.1 hc.2⟩).trans (if_neg fun hc => hout ⟨hc.1, hexit.1 hc.2⟩)
    dsimp only
    rw [hnext]
  · rw [hevents 12]
    simp [Pass.powerScaled, r]
  · rw [hevents 13]
    simp [p.shortfallOnset_iff, short, snap, r]
  · rw [hevents b]
    simp [h12, h13]

theorem Pass.maySwitch_iff (p : Pass) : p.maySwitch = true ↔ p.snapshot.device = .standby ∨
    (p.result.record.accepted.natAbs : Int) ≤ p.snapshot.image.switchThreshold p.snapshot.mode := by
  simp [Pass.maySwitch]

theorem Pass.blendAfter_eq (p : Pass) : p.blendAfter =
    if p.snapshot.blend.active = false then p.snapshot.blend
    else if p.result.blendCount < 250 then { p.snapshot.blend with count := p.result.blendCount }
    else { p.snapshot.blend with active := false, count := 0 } := by
  unfold Pass.blendAfter
  dsimp only
  cases p.snapshot.blend.active with
  | false => rfl
  | true =>
    rcases Nat.lt_or_ge p.result.blendCount 250 with h | h
    · simp [h, not_le.2 h]
    · simp [h, not_lt.2 h]

/-- Settles O10: the four outcomes of the comparison of the wanted mode with the current one. -/
theorem passCompletionSwitchesMode : Obligations.PassCompletionSwitchesMode := by
  intro s t p h hrun snap wanted switch advanced rest
  have ht : t = s.completePass p := Host.Outcome.next.inj (hrun.symm.trans (exec_passCompletion h))
  have hdu : t.du = p.completeDemand s.du := by
    obtain ⟨eu, hframe⟩ := s.completePass_frame p
    rw [ht, hframe]
  have hswitch : p.maySwitch = true ↔ switch := p.maySwitch_iff
  have hrest : { s.du with heldDemand := p.result.heldDemand, blend := p.blendAfter } = rest := by
    rw [p.blendAfter_eq]
  have hwanted : p.wantedMode = wanted := rfl
  rw [hdu, Pass.completeDemand, hwanted, hrest]
  refine ⟨fun hw => by rw [hw], fun hw => ?_, fun m hw hne hs => ?_, fun m hw hne hs => ?_⟩
  · rw [hw]
    exact if_pos rfl
  · rw [hw]
    exact (if_neg hne).trans (if_pos (hswitch.2 hs))
  · rw [hw]
    exact (if_neg hne).trans (if_neg (mt hswitch.1 hs))

/-! ## EVENT CONTROL -/

theorem EventUnit.control_of_other {op : Byte} (h1 : op ≠ 1#8) (h2 : op ≠ 2#8) (u : EventUnit) (events : BitVec 16) :
    u.control op events = u := by
  unfold EventUnit.control
  split
  · next h => exact absurd (BitVec.eq_of_toNat_eq h) h1
  · next h => exact absurd (BitVec.eq_of_toNat_eq h) h2
  · rfl

/-- Settles O41: a frame taken reaches the EU, which drives ATTN_N with each change. -/
theorem eventControlSetsMaskAndClears : Obligations.EventControlSetsMaskAndClears := by
  intro s src events h
  refine ⟨congrArg Host.Outcome.next (State.admit_of_taken _ h (by simp)),
    congrArg Host.Outcome.next (State.admit_of_taken _ h (by simp)), fun op h1 h2 => ?_⟩
  refine (congrArg Host.Outcome.next (State.admit_of_taken _ h (by simp))).trans ?_
  rw [EventUnit.control_of_other h1 h2]

end Sys2Proof.Machine
end

section
/-! The records that chassis frames and their timers keep: O20, O21, O22. -/

namespace Sys2Proof.Machine

/-! ## DEMAND (R17 to R22) -/

/-- The mode request code names one of the four modes, or leaves the record's mode. -/
theorem modeOfCode_getD (code : Byte) (mode : Mode) : (modeOfCode code.toNat).getD mode =
    if code = 0#8 then .normal else if code = 1#8 then .tow else if code = 2#8 then .terrain
    else if code = 3#8 then .rear else mode := by
  simp only [← BitVec.toNat_inj]
  generalize code.toNat = n
  rcases n with _ | _ | _ | _ | n <;> simp [modeOfCode]

section
variable {s : State} {ref counter : Nat}

theorem State.takeDemand_of_none (h : s.du.counterRef = none) (torque : BitVec 16) (mode flags : Byte) (counter : Nat)
    (together : Bool) : s.takeDemand torque mode flags counter together = s.acceptDemand torque mode flags counter := by
  simp only [State.takeDemand, h]

theorem State.takeDemand_of_repeat (h : s.du.counterRef = some ref) (torque : BitVec 16) (mode flags : Byte)
    (together : Bool) : s.takeDemand torque mode flags ref together = s := by
  simp only [State.takeDemand, h, if_true]

section
variable (href : s.du.counterRef = some ref) (hne : counter ≠ ref) (torque : BitVec 16) (mode flags : Byte) (together : Bool)
include href hne

theorem State.takeDemand_of_stale (h : s.du.demand.freshness = .stale) :
    s.takeDemand torque mode flags counter together =
      if together = true ∧ s.du.badRun = 2 ∧ counter ≠ (ref + 1) % 16 then s.thirdWrongAfterExpiry
      else s.acceptDemand torque mode flags counter := by
  simp only [State.takeDemand, href, h, if_neg hne]

theorem State.takeDemand_of_fresh (h : s.du.demand.freshness = .fresh) :
    s.takeDemand torque mode flags counter together =
      if counter = (ref + 1) % 16 then s.acceptDemand torque mode flags counter else s.wrongCounter := by
  simp only [State.takeDemand, href, h, if_neg hne]

theorem State.takeDemand_of_lost (h : s.du.demand.freshness = .lost) :
    s.takeDemand torque mode flags counter together =
      if s.du.resynced = true ∧ counter = (ref + 1) % 16 then s.acceptDemand torque mode flags counter
      else s.resynchronise counter := by
  simp only [State.takeDemand, href, h, if_neg hne]

end

end

theorem exec_demand_of_taken {s : State} {src : Source} (h : FrameTaken s src .ds) (torque : BitVec 16)
    (mode flags counter : Byte) (together : Bool) : exec (.demand src torque mode flags ⟨counter, together⟩) s =
      .next (s.takeDemand torque mode flags (counter.toNat % 16) together) :=
  congrArg Host.Outcome.next (State.admit_of_taken _ h (by simp))

/-- Settles O20: the frame reaches the DU, which takes it by the reference and the freshness. -/
theorem demandFramesFollowCounter : Obligations.DemandFramesFollowCounter := by
  refine ⟨fun s src torque mode flags counter together h => ?_, fun s src torque mode flags counter together ref h href => ?_⟩
  · intro c taken accepts
    have haccepts (ha : s.takeDemand torque mode flags c together = s.acceptDemand torque mode flags c) : accepts := by
      have htaken : s.du.demand.take torque mode flags = taken := by
        unfold DemandRecord.take
        rw [modeOfCode_getD]
        rfl
      refine (exec_demand_of_taken h torque mode flags counter together).trans ?_
      rw [ha, State.acceptDemand, htaken]
    refine ⟨fun _ hnone => haccepts (State.takeDemand_of_none hnone _ _ _ _ _), fun ref href hne => ⟨fun hf hrun => ?_,
      fun hf hnext => ?_, fun hf hre hnext => ?_⟩⟩
    · refine haccepts ((State.takeDemand_of_stale href hne _ _ _ _ hf).trans (if_neg ?_))
      rintro ⟨htogether, hbad, hwrong⟩
      rcases hrun with hrun | hrun | hrun
      · exact Bool.false_ne_true (hrun.symm.trans htogether)
      · exact hrun hbad
      · exact hwrong hrun
    · exact haccepts ((State.takeDemand_of_fresh href hne _ _ _ _ hf).trans (if_pos hnext))
    · exact haccepts ((State.takeDemand_of_lost href hne _ _ _ _ hf).trans (if_pos ⟨hre, hnext⟩))
  · intro c out
    have hout : out = .next (s.takeDemand torque mode flags c together) := exec_demand_of_taken h _ _ _ _ _
    rw [hout]
    have hwrong (hf : s.du.demand.freshness = .fresh) (hne : c ≠ ref) (hnext : c ≠ (ref + 1) % 16) :
        s.takeDemand torque mode flags c together = s.wrongCounter :=
      (State.takeDemand_of_fresh href hne _ _ _ _ hf).trans (if_neg hnext)
    refine ⟨fun hc => ?_, fun hf hne hnext htogether hbad => ?_, fun hf hne hnext hbad => ?_, fun hf hne hnext hbad => ?_,
      fun hf hne hre => ?_⟩
    · rw [hc, State.takeDemand_of_repeat href]
    · exact congrArg Host.Outcome.next
        ((State.takeDemand_of_stale href hne _ _ _ _ hf).trans (if_pos ⟨htogether, hbad, hnext⟩))
    · exact congrArg Host.Outcome.next ((hwrong hf hne hnext).trans (if_neg (by omega)))
    · refine congrArg Host.Outcome.next ((hwrong hf hne hnext).trans ((if_pos (by omega)).trans ?_))
      exact State.raise_eq_latched _ _
    · refine congrArg Host.Outcome.next ((State.takeDemand_of_lost href hne _ _ _ _ hf).trans (if_neg ?_))
      rintro ⟨hsync, hnext⟩
      rcases hre with hre | hre
      · exact Bool.false_ne_true (hre.symm.trans hsync)
      · exact hre hnext

/-! ## The demand timers, LOAD and BATTERY LIMIT (R18, R24, R103) -/

section
variable {s : State}

theorem exec_demandTimer30Ms_of_running (h : s.cp.timers.demand30 = true) : exec .demandTimer30Ms s = .next (
    if s.du.demand.freshness = .fresh then
      State.demandGoesStale { s with cp := { s.cp with timers := { s.cp.timers with demand30 := false } } }
    else { s with cp := { s.cp with timers := { s.cp.timers with demand30 := false } } }) :=
  congrArg Host.Outcome.next (if_pos h)

theorem exec_demandTimer130Ms_of_running (h : s.cp.timers.demand130 = true) : exec .demandTimer130Ms s = .next (
    if s.du.demand.freshness = .stale then
      State.demandGoesLost { s with cp := { s.cp with timers := { s.cp.timers with demand130 := false } } }
    else { s with cp := { s.cp with timers := { s.cp.timers with demand130 := false } } }) :=
  congrArg Host.Outcome.next (if_pos h)

end

/-- Settles O21: each timer by whether it runs, each frame by its owner. -/
theorem recordTimersAndLimitFrames : Obligations.RecordTimersAndLimitFrames := by
  refine ⟨fun s => ⟨fun h => ?_, fun h => ?_, fun h => ?_, fun h => ?_⟩, fun s => ⟨fun src tongue flags h => ?_,
    fun src discharge charge h => ?_, fun h => ?_, fun h => ?_, fun h => ?_, fun h => ?_⟩⟩
  · rw [exec_demandTimer30Ms_of_running h]
    refine ⟨fun hf => congrArg Host.Outcome.next ((if_pos hf).trans ?_), fun hf => congrArg Host.Outcome.next (if_neg hf)⟩
    exact State.raise_eq_latched _ _
  · rw [exec_demandTimer130Ms_of_running h]
    refine ⟨fun hf => congrArg Host.Outcome.next ((if_pos hf).trans ?_), fun hf => congrArg Host.Outcome.next (if_neg hf)⟩
    exact State.raise_eq_latched _ _
  · exact congrArg Host.Outcome.next (if_neg (by rw [h]; decide))
  · exact congrArg Host.Outcome.next (if_neg (by rw [h]; decide))
  · exact congrArg Host.Outcome.next (State.admit_of_taken _ h (by simp))
  · exact congrArg Host.Outcome.next (State.admit_of_taken _ h (by simp))
  · exact congrArg Host.Outcome.next (if_pos h)
  · refine congrArg Host.Outcome.next ((if_pos h).trans ?_)
    exact State.raise_eq_latched _ _
  · exact congrArg Host.Outcome.next (if_neg (by rw [h]; decide))
  · exact congrArg Host.Outcome.next (if_neg (by rw [h]; decide))

/-! ## REFERENCE and SLIP OVERRIDE (R39, R40, R52, R55, R57) -/

section
variable {e : SlipEstimator}

theorem SlipEstimator.takeReference_of_fresh (h : e.reference.freshness = .fresh) (front rear : Int) :
    e.takeReference front rear = { reference := ⟨⟨front, rear⟩, .fresh⟩, axle := e.axle } := by
  rw [SlipEstimator.takeReference, if_pos h]

theorem SlipEstimator.takeReference_of_not_fresh (h : e.reference.freshness ≠ .fresh) (front rear : Int) :
    e.takeReference front rear =
      { reference := ⟨⟨front, rear⟩, .fresh⟩, axle := ⟨e.axle.front.clear, e.axle.rear.clear⟩ } := by
  rw [SlipEstimator.takeReference, if_neg h]

/-- A selector and a code that are listed reach the axles named. -/
theorem SlipEstimator.takeOverride_of_listed {axle code : Byte} {sel : AxleSelector} {v : Option SlipState}
    (hsel : overrideAxles axle.toNat = some sel) (hcode : overrideCode code.toNat = some v)
    (h : e.reference.freshness = .fresh) : e.takeOverride axle code = { e with
      axle := ⟨e.axle.front.setOverride (sel.names .front) v, e.axle.rear.setOverride (sel.names .rear) v⟩ } := by
  simp only [SlipEstimator.takeOverride, hsel, hcode, if_pos h]

theorem overrideAxles_eq_none {n : Nat} (h : n = 0 ∨ 4 ≤ n) : overrideAxles n = none := by
  rcases h with rfl | h
  · rfl
  · obtain ⟨k, rfl⟩ := Nat.exists_eq_add_of_le' h
    rfl

theorem overrideCode_eq_none {n : Nat} (h : 4 ≤ n) : overrideCode n = none := by
  obtain ⟨k, rfl⟩ := Nat.exists_eq_add_of_le' h
  rfl

/-- A record that is not FRESH, or a value not listed, leaves the SE as it is. -/
theorem SlipEstimator.takeOverride_of_ignored {axle code : Byte}
    (h : e.reference.freshness ≠ .fresh ∨ overrideAxles axle.toNat = none ∨ overrideCode code.toNat = none) :
    e.takeOverride axle code = e := by
  unfold SlipEstimator.takeOverride
  split
  · next sel c hsel hcode =>
    rcases h with h | h | h
    · exact if_neg h
    · exact absurd (hsel.symm.trans h) (Option.some_ne_none _)
    · exact absurd (hcode.symm.trans h) (Option.some_ne_none _)
  · rfl

end

/-- The selectors of a SLIP OVERRIDE frame, and the axles they name. -/
theorem overrideAxles_of_listed {axle : Byte} (h : 1 ≤ axle.toNat ∧ axle.toNat ≤ 3) : ∃ sel,
    overrideAxles axle.toNat = some sel ∧ sel.names .front = (decide (axle = 1#8) || decide (axle = 3#8)) ∧
      sel.names .rear = (decide (axle = 2#8) || decide (axle = 3#8)) := by
  have hcases : axle = 1#8 ∨ axle = 2#8 ∨ axle = 3#8 := by bv_omega
  rcases hcases with rfl | rfl | rfl
  · exact ⟨.front, rfl, rfl, rfl⟩
  · exact ⟨.rear, rfl, rfl, rfl⟩
  · exact ⟨.both, rfl, rfl, rfl⟩

theorem overrideCode_of_listed {code : Byte} {v : Option SlipState} (h : (code = 0#8 ∧ v = none) ∨
    (code = 1#8 ∧ v = some .grip) ∨ (code = 2#8 ∧ v = some .slip) ∨ (code = 3#8 ∧ v = some .spin)) :
    overrideCode code.toNat = some v := by
  rcases h with ⟨rfl, rfl⟩ | ⟨rfl, rfl⟩ | ⟨rfl, rfl⟩ | ⟨rfl, rfl⟩ <;> rfl

/-- Settles O22: the SE takes the frame by the freshness of its record, the override by its two codes. -/
theorem referenceRecordAndOverrides : Obligations.ReferenceRecordAndOverrides := by
  refine ⟨fun s => ⟨fun src front rear h => ?_, fun h => ?_, fun h => ?_⟩, fun s src axle code h => ?_⟩
  · intro cleared
    refine congrArg Host.Outcome.next ((State.admit_of_taken _ h (by simp)).trans ?_)
    have hse : s.se.takeReference front.toInt rear.toInt =
        ⟨⟨⟨front.toInt, rear.toInt⟩, .fresh⟩, ⟨cleared s.se.axle.front, cleared s.se.axle.rear⟩⟩ := by
      by_cases hf : s.se.reference.freshness = .fresh
      · rw [SlipEstimator.takeReference_of_fresh hf]
        simp [cleared, hf]
      · rw [SlipEstimator.takeReference_of_not_fresh hf]
        simp [cleared, hf, SlipAxle.clear, SlipAxle.reset]
    rw [State.takeReference, hse]
  · refine congrArg Host.Outcome.next ((if_pos h).trans ?_)
    exact State.raise_eq_latched _ _
  · exact congrArg Host.Outcome.next (if_neg (by rw [h]; decide))
  · intro out front rear put
    have hout : out = .next { s with se := s.se.takeOverride axle code } :=
      congrArg Host.Outcome.next (State.admit_of_taken _ h (by simp))
    rw [hout]
    refine ⟨fun hf haxle v hv => ?_, fun hignored => ?_⟩
    · obtain ⟨sel, hsel, hfront, hrear⟩ := overrideAxles_of_listed haxle
      rw [SlipEstimator.takeOverride_of_listed hsel (overrideCode_of_listed hv) hf, hfront, hrear]
      rfl
    · rw [SlipEstimator.takeOverride_of_ignored]
      rcases hignored with hf | rfl | haxle | hcode
      · exact .inl hf
      · exact .inr (.inl rfl)
      · exact .inr (.inl (overrideAxles_eq_none (.inr haxle)))
      · exact .inr (.inr (overrideCode_eq_none hcode))

end Sys2Proof.Machine
end

section
/-! Interventions: levels and refusals, placement, update in place, re-placement, removal with admission, and the answer
queue: O25 to O32. -/

namespace Sys2Proof.Machine

/-! ## The answer queue (R143) -/

/-- An answer changes the answer queue alone. -/
theorem Port.addAnswer_keeps (p : Port) (a : Answer) :
    (p.addAnswer a).transmission = p.transmission ∧ (p.addAnswer a).answerOnBus = p.answerOnBus := by
  unfold Port.addAnswer
  split <;> exact ⟨rfl, rfl⟩

theorem Port.addAnswers_cons (p : Port) (a : Answer) (l : List Answer) :
    p.addAnswers (a :: l) = (p.addAnswer a).addAnswers l := rfl

theorem suffix_append_append {α : Type} {l l' : List α} (h : l <:+ l') (r : List α) : l ++ r <:+ l' ++ r := by
  obtain ⟨t, rfl⟩ := h
  exact ⟨t, by simp⟩

theorem Port.addAnswer_suffix {p : Port} (h : p.answerOnBus = false) (a : Answer) :
    (p.addAnswer a).answers <:+ p.answers ++ [a] := by
  unfold Port.addAnswer
  split
  · exact List.suffix_rfl
  · rw [h]
    refine suffix_append_append ?_ [a]
    cases p.answers with
    | nil => exact List.suffix_rfl
    | cons head rest => exact List.suffix_cons head rest

/-- Without an answer in transmission the queue keeps the newest answers. -/
theorem Port.addAnswers_suffix {p : Port} (h : p.answerOnBus = false) (l : List Answer) :
    (p.addAnswers l).answers <:+ p.answers ++ l := by
  induction l generalizing p with
  | nil => simp [Port.addAnswers]
  | cons a l ih =>
    have hrest := ih (p := p.addAnswer a) ((p.addAnswer_keeps a).2.trans h)
    rw [p.addAnswers_cons]
    simpa using hrest.trans (suffix_append_append (Port.addAnswer_suffix h a) l)

theorem Port.addAnswer_on_bus {p : Port} (h : p.answerOnBus = true) {head : Answer} {rest : List Answer}
    (hp : p.answers = head :: rest) (a : Answer) :
    ∃ kept, (p.addAnswer a).answers = head :: kept ∧ kept <:+ rest ++ [a] := by
  unfold Port.addAnswer
  rw [hp, h]
  split
  · exact ⟨rest ++ [a], rfl, List.suffix_rfl⟩
  · exact ⟨rest.tail ++ [a], rfl, suffix_append_append (List.tail_suffix rest) [a]⟩

/-- An answer in transmission stays at the head, and behind it the queue keeps the newest answers. -/
theorem Port.addAnswers_on_bus {p : Port} (h : p.answerOnBus = true) {head : Answer} {rest : List Answer}
    (hp : p.answers = head :: rest) (l : List Answer) :
    ∃ kept, (p.addAnswers l).answers = head :: kept ∧ kept <:+ rest ++ l := by
  induction l generalizing p rest with
  | nil => exact ⟨rest, hp, by simp⟩
  | cons a l ih =>
    obtain ⟨kept, hkept, hsuffix⟩ := Port.addAnswer_on_bus h hp a
    obtain ⟨kept', hkept', hsuffix'⟩ := ih ((p.addAnswer_keeps a).2.trans h) hkept
    refine ⟨kept', hkept', ?_⟩
    simpa using hsuffix'.trans (suffix_append_append hsuffix l)

/-- Settles O32: the frame and the length of the queue, and its suffix by whether an answer is in transmission. -/
theorem answerQueueKeepsNewestEight : Obligations.AnswerQueueKeepsNewestEight := by
  intro p l hp q
  obtain ⟨queued, hq⟩ := p.addAnswers_cases l
  refine ⟨?_, Port.addAnswers_length hp l, fun hno => Port.addAnswers_suffix ?_ l, fun t head rest ht ho hh => ?_⟩
  · show p.addAnswers l = { p with answers := (p.addAnswers l).answers }
    rw [hq]
  · unfold Port.answerOnBus
    split
    · next t ht => simpa using hno t ht
    · rfl
  · exact Port.addAnswers_on_bus (by simp [Port.answerOnBus, ht, ho]) hh l

/-! ## Levels and refusals (R61, R62) -/

theorem ChassisConfig.entry_of_table {c : ChassisConfig} {src : Source} {e : SourceEntry} (h : c.table[src.val]? = some e) :
    c.entry src = e := by
  rw [ChassisConfig.entry, List.getD_eq_getElem?_getD, h]
  rfl

section
variable {s : State} {src : Source} {c : ChassisConfig} {e : SourceEntry}

/-- The level range by the source's entry, or by its role where the bounds are the wrong way round. -/
theorem State.levelRange_of_entry (hc : s.chassis = some c) (he : c.table[src.val]? = some e) : s.levelRange src =
    if min e.lower 7 ≤ min e.upper 7 then (min e.lower 7, min e.upper 7)
    else if s.bound src .tm then (4, 7) else (0, 5) := by
  unfold State.levelRange
  rw [hc, Option.getD_some, ChassisConfig.entry_of_table he]

end

/-- An INTERVENTION frame that its source may send reaches the IA. -/
theorem State.intervention_of_frame {s : State} {src : Source} (h : FrameTaken s src .sc ∨ FrameTaken s src .tm)
    (action : Byte) (f : InterventionFields) :
    s.intervention src action f = s.takeIntervention src f (Arbiter.act src action f) := by
  rcases h with h | h <;> exact State.admit_of_taken _ h (by simp)

/-- Outside STANDBY and ACTIVE the IA answers REFUSED WRONG STATE, whatever the action. -/
theorem State.intervention_of_wrong_state {s : State} {src : Source} (h : FrameTaken s src .sc ∨ FrameTaken s src .tm)
    (hd : s.osc.device = .service ∨ s.osc.device = .safeHold) (action : Byte) (f : InterventionFields) :
    s.intervention src action f = answered s s.ia [⟨src, f.tag, .refusedWrongState, s.levelOf src f, .none⟩] := by
  have hnot : ¬(s.osc.device = .standby ∨ s.osc.device = .active) := by
    rcases hd with hd | hd <;> rw [hd] <;> decide
  rw [State.intervention_of_frame h, State.takeIntervention, if_neg hnot, State.arbitrate_eq]
  rfl

theorem Arbiter.act_of_bad_kind {action : Byte} (h : 5 ≤ action.toNat) (src : Source) (f : InterventionFields) (a : Arbiter)
    (level : Nat) : Arbiter.act src action f a level = ⟨a, [⟨src, f.tag, .refusedBadKind, level, .none⟩], false⟩ := by
  obtain ⟨k, hk⟩ := Nat.exists_eq_add_of_le' h
  simp only [Arbiter.act, hk]

/-- Settles O25: the level by the range of the source, the refusals by the device state and the action code. -/
theorem interventionLevelsAndRefusals : Obligations.InterventionLevelsAndRefusals := by
  refine ⟨fun s src f c e hc he _ => ?_, fun s src f h => ?_⟩
  · intro lo hi asked
    have hlevel : s.levelOf src f = clampNat (s.levelRange src).1 (s.levelRange src).2 asked := rfl
    refine ⟨fun hle => ?_, fun hlt htm => ?_, fun hlt htm => ?_, s.levelOf_le src f⟩
    · rw [hlevel, State.levelRange_of_entry hc he, if_pos hle]
      rfl
    · rw [hlevel, State.levelRange_of_entry hc he, if_neg (not_le.2 hlt), if_pos htm]
      rfl
    · rw [hlevel, State.levelRange_of_entry hc he, if_neg (not_le.2 hlt), if_neg (by rw [htm]; decide)]
      exact Nat.zero_max _
  · intro refused
    refine ⟨fun hd => ⟨fun k => ?_, ?_, fun action _ => ?_⟩, fun hd action haction => ?_⟩
    · cases k <;> exact congrArg Host.Outcome.next (State.intervention_of_wrong_state h hd _ f)
    · exact congrArg Host.Outcome.next (State.intervention_of_wrong_state h hd _ f)
    · exact congrArg Host.Outcome.next (State.intervention_of_wrong_state h hd action f)
    · refine congrArg Host.Outcome.next ?_
      rw [State.intervention_of_taken action f ⟨h, hd⟩, Arbiter.act_of_bad_kind haction, State.arbitrate_eq]
      rfl

/-! ## Placement (R67 to R69) -/

section
variable {a : Arbiter} {e : Entry}

theorem seekPlace_of_room {l : List Entry} (h : l.length < 6) : seekPlace l e = (insertWaiting e l, true, none) := if_pos h

theorem seekPlace_of_better {l : List Entry} {last : Entry} (h : l.length = 6) (hl : l.getLast? = some last)
    (hb : e.level < last.level) : seekPlace l e = (insertWaiting e l.dropLast, true, some last) := by
  rw [seekPlace, if_neg (by show ¬_ < 6; omega), hl]
  exact if_pos hb

theorem seekPlace_of_worse {l : List Entry} {last : Entry} (h : l.length = 6) (hl : l.getLast? = some last)
    (hb : last.level ≤ e.level) : seekPlace l e = (l, false, none) := by
  rw [seekPlace, if_neg (by show ¬_ < 6; omega), hl]
  exact if_neg (not_lt.2 hb)

theorem Arbiter.place_of_room (hb : betterThanTop e.level a.stack = true) (hroom : a.stack.length < 4) : a.place e =
    ⟨{ a with stack := e :: a.stack, arrivals := a.arrivals + 1 }, [e.answer .accepted .stack], false⟩ := by
  rw [Arbiter.place, if_pos hb, if_pos hroom]

theorem Arbiter.place_of_full {bottom : Entry} (hb : betterThanTop e.level a.stack = true) (hfull : a.stack.length = 4)
    (hl : a.stack.getLast? = some bottom) : a.place e = a.preempt e bottom := by
  rw [Arbiter.place, if_pos hb, if_neg (by show ¬_ < 4; omega), hl]

theorem Arbiter.place_of_worse (hb : betterThanTop e.level a.stack = false) : a.place e = a.queue e := by
  rw [Arbiter.place, if_neg (by rw [hb]; decide)]

end

section
variable {s : State} {src : Source} {f : InterventionFields}

/-- A request of an identity that neither list holds is placed. -/
theorem exec_requestOf_of_new (k : InterventionKind) (h : InterventionTaken s src) (hn : NotHeld s src f.tag) :
    exec (requestOf k src f) s =
      .next (s.arbitrate (s.ia.place (formedEntry k src f (s.levelOf src f) s.ia.arrivals))) := by
  rw [exec_requestOf_of_taken k f h, Arbiter.request, Arbiter.find_eq_none hn, Arbiter.entryOf_eq_formedEntry]

end

/-- Settles O26: `Arbiter.place_of_room` on the entry formed. -/
theorem betterRequestIsPushed : Obligations.BetterRequestIsPushed := by
  intro k s src f h hn hroom hb e
  rw [exec_requestOf_of_new k h hn, Arbiter.place_of_room ((betterThanTop_iff _ _).2 hb) hroom, State.arbitrate_eq]
  rfl

/-- Settles O27: the bottom entry seeks a place in the Pending List, which `seekPlace` gives in three ways. -/
theorem fullStackDisplacesBottom : Obligations.FullStackDisplacesBottom := by
  intro k s src f bottom h hn hlaws hfull hlast hb e lists out
  have hout : out = .next (s.arbitrate (s.ia.preempt e bottom)) := by
    rw [← Arbiter.place_of_full ((betterThanTop_iff _ _).2 hb) hfull hlast]
    exact exec_requestOf_of_new k h hn
  have horder : (seekPlace s.ia.waiting bottom).1.Pairwise WaitingOrder :=
    (seekPlace_laws hlaws.waiting_capacity hlaws.waiting_order
      fun x hx => hlaws.order_ne (List.mem_of_getLast? hlast) hx).2.1
  refine ⟨(seekPlace s.ia.waiting bottom).1, horder, fun hroom => ?_, fun last hsix hl hlt => ?_, fun last hsix hl hle => ?_⟩
  · rw [hout, State.arbitrate_eq, Arbiter.preempt, seekPlace_of_room hroom]
    exact ⟨insertWaiting_perm _ _, rfl⟩
  · rw [hout, State.arbitrate_eq, Arbiter.preempt, seekPlace_of_better hsix hl hlt]
    exact ⟨insertWaiting_perm _ _, rfl⟩
  · rw [hout, State.arbitrate_eq, Arbiter.preempt, seekPlace_of_worse hsix hl hle]
    exact ⟨rfl, rfl⟩

/-- Settles O28: the new entry seeks a place in the Pending List, or is refused. -/
theorem worseRequestWaitsOrIsRefused : Obligations.WorseRequestWaitsOrIsRefused := by
  intro k s src f top h hn hlaws htop hle e lists out
  have hout : out = .next (s.arbitrate (s.ia.queue e)) := by
    rw [← Arbiter.place_of_worse (betterThanTop_eq_false htop hle)]
    exact exec_requestOf_of_new k h hn
  have horder : (seekPlace s.ia.waiting e).1.Pairwise WaitingOrder :=
    (seekPlace_laws hlaws.waiting_capacity hlaws.waiting_order
      fun x hx => (hlaws.orders_past x (List.mem_append_right _ hx)).ne).2.1
  refine ⟨⟨(seekPlace s.ia.waiting e).1, horder, fun hroom => ?_, fun last hsix hl hlt => ?_⟩, fun last hsix hl hle => ?_⟩
  · rw [hout, State.arbitrate_eq, Arbiter.queue, seekPlace_of_room hroom]
    exact ⟨insertWaiting_perm _ _, rfl⟩
  · rw [hout, State.arbitrate_eq, Arbiter.queue, seekPlace_of_better hsix hl hlt]
    exact ⟨insertWaiting_perm _ _, rfl⟩
  · rw [hout, State.arbitrate_eq, Arbiter.queue, seekPlace_of_worse hsix hl hle]
    rfl

/-! ## Update in place (R70) and re-placement (R71) -/

section
variable {a : Arbiter} {e : Entry}

/-- The entry of an identity is found with its place. -/
theorem ListLaws.find_held (h : ListLaws a) (he : e ∈ a.stack ++ a.waiting) :
    a.find e.source e.tag = some (e, if e ∈ a.stack then .stack else .pending) := by
  split
  · next hs => exact h.find_stack hs
  · next hs => exact h.find_waiting ((List.mem_append.1 he).resolve_left hs)

theorem Entry.update_eq_formedEntry (e : Entry) (f : InterventionFields) (ht : e.tag = f.tag) :
    e.update f = formedEntry e.kind e.source f e.level e.order := by
  have hformed := (Arbiter.entryOf_eq_formedEntry ⟨[], [], e.order⟩ e.kind e.source f e.level)
  rw [← hformed, Entry.update, Arbiter.entryOf, ht]

/-- An update reaches the entry of the identity and no other. -/
theorem ListLaws.updateEntries_eq (h : ListLaws a) (he : e ∈ a.stack ++ a.waiting) {f : InterventionFields}
    (ht : e.tag = f.tag) {l : List Entry} (hl : ∀ x ∈ l, x ∈ a.stack ++ a.waiting) : updateEntries l e.source f =
      l.map fun x => if x = e then formedEntry e.kind e.source f e.level e.order else x := by
  refine List.map_congr_left fun x hx => ?_
  rw [← ht]
  by_cases hxe : x = e
  · subst hxe
    rw [if_pos ((h.is_iff_eq he he).2 rfl), if_pos rfl, Entry.update_eq_formedEntry _ _ ht]
  · rw [if_neg (mt (h.is_iff_eq (hl x hx) he).1 hxe), if_neg hxe]

end

/-- Settles O29: the entry is found with its place, and the update reaches it alone. -/
theorem refreshUpdatesEntryInPlace : Obligations.RefreshUpdatesEntryInPlace := by
  intro s src f e h hlaws he hsrc htag hlevel put
  subst hsrc
  have hfind : s.ia.find e.source f.tag = some (e, if e ∈ s.ia.stack then .stack else .pending) :=
    htag ▸ hlaws.find_held he
  have hstack := hlaws.updateEntries_eq he htag (l := s.ia.stack) fun x hx => List.mem_append_left _ hx
  have hwaiting := hlaws.updateEntries_eq he htag (l := s.ia.waiting) fun x hx => List.mem_append_right _ hx
  rw [exec_requestOf_of_taken _ f h, Arbiter.request, hfind, State.arbitrate_eq]
  dsimp only
  rw [if_pos ⟨rfl, hlevel⟩, hstack, hwaiting]
  rfl

/-! ## Release, expiry and re-placement (R71 to R73) -/

section
variable {a : Arbiter} {e : Entry}

theorem ListLaws.release_eq (h : ListLaws a) (he : e ∈ a.stack ++ a.waiting) : a.release e.source e.tag =
    ⟨(a.remove e.source e.tag).1, answerTo e .released .none :: (a.remove e.source e.tag).2, false⟩ := by
  rw [Arbiter.release, h.find_held he]
  rfl

theorem ListLaws.expire_eq (h : ListLaws a) (he : e ∈ a.stack ++ a.waiting) : a.expire e.source e.tag =
    ⟨(a.remove e.source e.tag).1, answerTo e .expired .none :: (a.remove e.source e.tag).2, true⟩ := by
  rw [Arbiter.expire, h.find_held he]
  rfl

/-- A request of a held identity with another kind or level removes the entry and places a new one. -/
theorem ListLaws.request_replaces (h : ListLaws a) (he : e ∈ a.stack ++ a.waiting) {k : InterventionKind} {level : Nat}
    {f : InterventionFields} (ht : e.tag = f.tag) (hne : e.kind ≠ k ∨ e.level ≠ level) :
    a.request e.source k level f =
      let r := (a.remove e.source f.tag).1.place ((a.remove e.source f.tag).1.entryOf e.source k level f)
      { r with answers := (a.remove e.source f.tag).2 ++ r.answers } := by
  have hfind := h.find_held he
  rw [ht] at hfind
  rw [Arbiter.request, hfind]
  exact if_neg fun hc => hne.elim (absurd hc.1) (absurd hc.2)

theorem Arbiter.place_answers_length (a : Arbiter) (e : Entry) : (a.place e).answers.length ≤ 3 := by
  have hdropped (out : Option Entry) : (droppedAnswers out).length ≤ 1 := by cases out <;> simp [droppedAnswers]
  unfold Arbiter.place
  split
  · split
    · simp
    · split
      · next bottom _ => exact Nat.succ_le_succ (Nat.succ_le_succ (hdropped (seekPlace a.waiting bottom).2.2))
      · simp
  · unfold Arbiter.queue
    dsimp only
    split
    · exact (Nat.succ_le_succ (hdropped (seekPlace a.waiting e).2.2)).trans (by decide)
    · simp

end

/-- Settles O30: a release removes the entry, so the request that follows it finds no entry of its identity and is placed,
as the re-placement is after its own removal. -/
theorem replacementIsRemovalAndNewRequest : Obligations.ReplacementIsRemovalAndNewRequest := by
  intro k s src f e h hlaws he hsrc htag hne
  subst hsrc
  obtain ⟨-, -, hlength, hgone⟩ := hlaws.remove he
  rw [htag] at hlength hgone
  let left := (s.ia.remove e.source f.tag).1
  let r := left.place (left.entryOf e.source k (s.levelOf e.source f) f)
  refine ⟨left, r.ia, (s.ia.remove e.source f.tag).2, r.answers, r.dropped, hlength, Arbiter.place_answers_length _ _,
    fun queued => ?_⟩
  intro s' t
  have h' : InterventionTaken s' e.source := h
  have hrelease : s'.ia.release e.source f.tag = ⟨left, answerTo e .released .none :: (s.ia.remove e.source f.tag).2, false⟩ := by
    have := hlaws.release_eq he
    rwa [htag] at this
  have hnone : left.find e.source f.tag = none :=
    Arbiter.find_eq_none fun x hx hc => hgone x hx ⟨hc.1.symm, htag.trans hc.2.symm⟩
  refine ⟨?_, ?_, ?_⟩
  · rw [exec_release_of_taken f h', hrelease, State.arbitrate_eq]
    rfl
  · have hrequest : t.ia.request e.source k (t.levelOf e.source f) f = r := by
      rw [answered_levelOf]
      show left.request e.source k (s.levelOf e.source f) f = r
      rw [Arbiter.request, hnone]
    rw [exec_requestOf_of_taken k f (interventionTaken_answered _ _ h'), hrequest, State.arbitrate_eq]
  · have hrequest : s'.ia.request e.source k (s'.levelOf e.source f) f =
        { r with answers := (s.ia.remove e.source f.tag).2 ++ r.answers } := hlaws.request_replaces he htag hne
    rw [exec_requestOf_of_taken k f h', hrequest, State.arbitrate_eq]

/-! ## Removal and admission (R72, R73, R75) -/

theorem answered_nil (s : State) : answered s s.ia [] = s := rfl

/-- Settles O31: the removal in its three forms by `ListLaws.remove_cases`. -/
theorem removalAdmitsFirstPending : Obligations.RemovalAdmitsFirstPending := by
  refine ⟨fun s src f e hlaws he hsrc htag => ?_, fun s src f hn => ⟨fun h => ?_, ?_⟩⟩
  · subst hsrc
    intro without happens
    have hhappens (stack waiting : List Entry) (admitted : List Answer)
        (hremove : s.ia.remove e.source e.tag = (⟨stack, waiting, s.ia.arrivals⟩, admitted)) :
        happens stack waiting admitted := by
      refine ⟨fun h => ?_, ?_⟩
      · rw [exec_release_of_taken f h, ← htag, hlaws.release_eq he, hremove, State.arbitrate_eq]
        rfl
      · show Host.Outcome.next (s.arbitrate (s.ia.expire e.source f.tag)) = _
        rw [← htag, hlaws.expire_eq he, hremove, State.arbitrate_eq]
        rfl
    rcases hlaws.remove_cases he with ⟨hnot, hr⟩ | ⟨below, hs, hnone, hr⟩ | ⟨below, first, rest, hs, hw, hbetter, hr⟩
    · exact ⟨fun _ => hhappens _ _ _ hr, fun below hs => absurd (by rw [hs]; rfl) hnot,
        fun below first rest hs => absurd (by rw [hs]; rfl) hnot⟩
    · refine ⟨fun hnot => absurd (by rw [hs]; rfl) hnot, fun below' hs' hw => ?_, fun below' first rest hs' hw => ?_⟩
      · obtain ⟨-, rfl⟩ := List.cons.inj (hs.symm.trans hs')
        exact hhappens _ _ _ (hw ▸ hr)
      · obtain ⟨-, rfl⟩ := List.cons.inj (hs.symm.trans hs')
        obtain ⟨top, htop, hle⟩ := hnone first (by rw [hw]; rfl)
        exact ⟨fun hb => absurd (hb top htop) (not_lt.2 hle), fun _ _ _ => hhappens _ _ _ (hw ▸ hr)⟩
    · refine ⟨fun hnot => absurd (by rw [hs]; rfl) hnot, fun below' hs' hw' => ?_, fun below' first' rest' hs' hw' => ?_⟩
      · exact absurd (hw.symm.trans hw') (List.cons_ne_nil _ _)
      · obtain ⟨-, rfl⟩ := List.cons.inj (hs.symm.trans hs')
        obtain ⟨rfl, rfl⟩ := List.cons.inj (hw.symm.trans hw')
        exact ⟨fun _ => hhappens _ _ _ hr, fun top htop hle => absurd (hbetter top htop) (not_lt.2 hle)⟩
  · rw [exec_release_of_taken f h, Arbiter.release, Arbiter.find_eq_none hn, State.arbitrate_eq]
    rfl
  · show Host.Outcome.next (s.arbitrate (s.ia.expire src f.tag)) = _
    rw [Arbiter.expire, Arbiter.find_eq_none hn, State.arbitrate_eq]
    exact congrArg Host.Outcome.next (answered_nil s)

end Sys2Proof.Machine
end

section
/-! Report frames and the end of a slot: O33, O34, O35, O36. -/

namespace Sys2Proof.Machine

/-! ## When a report frame is taken, and when it is good (R116, R118, R131) -/

/-- Two fields of two bytes are the same when their bytes are. -/
theorem append_eq_append_iff (a b c d : Byte) : a ++ b = c ++ d ↔ a = c ∧ b = d := by
  refine ⟨fun h => ⟨?_, ?_⟩, fun h => by rw [h.1, h.2]⟩
  · simpa only [BitVec.extractLsb'_append_eq_left] using congrArg (BitVec.extractLsb' 8 8) h
  · simpa only [BitVec.extractLsb'_append_eq_right] using congrArg (BitVec.extractLsb' 0 8) h

theorem wordAt_eq_iff (f g : List Byte) (m n : Nat) : wordAt f m = wordAt g n ↔
    f.getD m 0#8 = g.getD n 0#8 ∧ f.getD (m + 1) 0#8 = g.getD (n + 1) 0#8 := append_eq_append_iff _ _ _ _

/-- The frame echoes the torque field sent in its slot. -/
def EchoesTorque (l : Link) (bytes : List Byte) : Prop :=
  bytes.getD 3 0#8 = l.sentFrame.getD 1 0#8 ∧ bytes.getD 4 0#8 = l.sentFrame.getD 2 0#8

/-- A complete report frame is good by the two checks of R118, and in FAR with acknowledge verified by its echo too. -/
theorem Link.goodReport_iff_echo {l : Link} {bytes : List Byte} (h : bytes.length = 8) :
    l.goodReport (readReport bytes) = true ↔
      GoodReport l bytes ∧ (l.loop = .far → l.ackVerified = true → EchoesTorque l bytes) := by
  have ht : bytes.take 8 = bytes := List.take_of_length_le h.le
  have hopened := Link.goodReport_iff (l := { l with loop := .opened }) h rfl
  have hecho : (readReport bytes).drive = l.sentTorque ↔ EchoesTorque l bytes := wordAt_eq_iff _ _ _ _
  rw [ht] at hopened
  have hgood : (readReport bytes).checked = true ∧ (readReport bytes).number = l.position ↔ GoodReport l bytes := by
    rw [show GoodReport l bytes ↔ GoodReport { l with loop := .opened } bytes from .rfl, ← hopened]
    simp [Link.goodReport]
  unfold Link.goodReport
  rw [← hgood, ← hecho]
  cases l.loop <;> cases l.ackVerified <;> simp

theorem Link.takesReport_eq_false {l : Link} (h : l.slot ≠ .waiting ∨ (l.loop ≠ .opened ∧ l.loop ≠ .far)) :
    l.takesReport = false := by
  rw [Bool.eq_false_iff, Ne, Link.takesReport_iff]
  rintro ⟨hslot, hloop⟩
  rcases h with h | ⟨h0, h1⟩
  · exact h hslot
  · exact hloop.elim h0 h1

section
variable {s : State} {x : Axle} {bytes : List Byte}

theorem exec_reportFrame_of_not_taken (h : (s.links.get x).takesReport = false) :
    exec (.reportFrame x bytes) s = .next s :=
  congrArg Host.Outcome.next (if_neg fun hc => Bool.false_ne_true (h.symm.trans hc.1))

/-- A frame that the receiver takes is a good result after its contents are handed on, or a bad one. -/
theorem exec_reportFrame_of_taken (hs : (s.links.get x).slot = .waiting)
    (hl : (s.links.get x).loop = .opened ∨ (s.links.get x).loop = .far) (h : bytes.length = 8) :
    exec (.reportFrame x bytes) s = .next (
      if (s.links.get x).goodReport (readReport bytes) then
        afterGoodSlot (s.handReport x (readReport bytes)) x ((bytes.getD 0 0#8).getLsbD 3)
      else afterBadSlot s x) := by
  have htakes : (s.links.get x).takesReport = true := (Link.takesReport_iff _).2 ⟨hs, hl⟩
  refine congrArg Host.Outcome.next ((if_pos ⟨htakes, h.ge⟩).trans ?_)
  dsimp only
  rw [List.take_of_length_le h.le, State.slotResult_good, State.slotResult_bad]
  rfl

theorem exec_reportFrame_of_good (hs : (s.links.get x).slot = .waiting)
    (hl : (s.links.get x).loop = .opened ∨ (s.links.get x).loop = .far) (h : GoodReport (s.links.get x) bytes)
    (he : (s.links.get x).loop = .far → (s.links.get x).ackVerified = true → EchoesTorque (s.links.get x) bytes) :
    exec (.reportFrame x bytes) s =
      .next (afterGoodSlot (s.handReport x (readReport bytes)) x ((bytes.getD 0 0#8).getLsbD 3)) := by
  rw [exec_reportFrame_of_taken hs hl h.1, if_pos ((Link.goodReport_iff_echo h.1).2 ⟨h, he⟩)]

theorem exec_slotEnd_of_waiting (hs : (s.links.get x).slot = .waiting) :
    exec (.slotEnd x) s = .next (afterBadSlot s x) := by
  show Host.Outcome.next (s.endSlot x) = _
  rw [State.endSlot, hs]
  dsimp only
  rw [State.slotResult_bad]

theorem exec_reportFrame_of_bad (hs : (s.links.get x).slot = .waiting)
    (hl : (s.links.get x).loop = .opened ∨ (s.links.get x).loop = .far) (h : bytes.length = 8)
    (hb : ¬(GoodReport (s.links.get x) bytes ∧
      ((s.links.get x).loop = .far → (s.links.get x).ackVerified = true → EchoesTorque (s.links.get x) bytes))) :
    exec (.reportFrame x bytes) s = exec (.slotEnd x) s := by
  rw [exec_reportFrame_of_taken hs hl h, if_neg (mt (Link.goodReport_iff_echo h).1 hb), exec_slotEnd_of_waiting hs]

/-! ## What a good frame's contents give (R41, R42, R82, R83, R119, R123) -/

theorem State.handReport_of_far (hl : (s.links.get x).loop = .far) (r : ReportFrame) : s.handReport x r = { s with
    links := s.links.set x { s.links.get x with
      farErrors := if r.farError then min ((s.links.get x).farErrors + 1) 255 else (s.links.get x).farErrors } } := by
  unfold State.handReport
  simp only [hl]

theorem State.handReport_of_opened (hl : (s.links.get x).loop = .opened) (r : ReportFrame) : s.handReport x r =
    State.takeSample { s with
      links := s.links.set x { s.links.get x with
        farErrors := if r.farError then min ((s.links.get x).farErrors + 1) 255 else (s.links.get x).farErrors
        speed := r.speed }
      cu := s.cu.set x ((s.cu.get x).report r.drive.toNat r.regen.toNat) } x r.speed := by
  unfold State.handReport
  simp only [hl]

theorem State.takeSample_of_not_fresh (h : s.se.reference.freshness ≠ .fresh) (speed : Int) :
    s.takeSample x speed = s := if_neg h

/-- A sample taken: the axle's step, and the onsets of FILTER SATURATED and SLIP ENTERED. -/
theorem State.takeSample_of_fresh (h : s.se.reference.freshness = .fresh) (speed : Int) : s.takeSample x speed =
    let a := s.se.axle.get x
    let b := a.step s.calibration x (signOf s.ae.record.accepted) speed (s.se.reference.speed.get x)
    latchedIf (latchedIf { s with se := { s.se with axle := s.se.axle.set x b } } (b.saturated && !a.saturated) 11)
      (a.auto == .grip && b.auto == .slip) 10 := by
  unfold State.takeSample
  rw [if_pos h]
  dsimp only
  rw [State.raiseIf_eq_latchedIf, State.raiseIf_eq_latchedIf]
  rfl

end

/-- Settles O33: the contents handed on in normal operation, then a good result. -/
theorem goodReportIsHandedOn : Obligations.GoodReportIsHandedOn := by
  intro s x bytes l a c m word speed drive regen sampled ref f b t hs hl hgood
  rw [exec_reportFrame_of_good hs (.inl hl) hgood fun hf => absurd (hl.symm.trans hf) (by decide),
    State.handReport_of_opened hl]
  congr 2
  by_cases hf : s.se.reference.freshness = .fresh
  · have hsampled : sampled = true := by simp [sampled, hf]
    have hsaturated : b.saturated = f.saturated := (f.classify_keeps _ _ _ _).1.2.2.1
    refine (State.takeSample_of_fresh ?_ _).trans ?_
    · exact hf
    · simp only [t, hsampled, if_true, Bool.true_and]
      rw [← hsaturated]
      rfl
  · have hsampled : sampled = false := by simp [sampled, hf]
    refine (State.takeSample_of_not_fresh ?_ _).trans ?_
    · exact hf
    · simp only [t, hsampled, a, Axles.set_get, Bool.false_and, Bool.false_eq_true, if_false]
      rfl

/-- Settles O34: in FAR the contents are the flag and the bit alone; a near loopback takes no report frame. -/
theorem loopedLinksTakeNoReportData : Obligations.LoopedLinksTakeNoReportData := by
  intro s x bytes l b0 echo
  refine ⟨fun hs hl hgood he => ?_, fun hs hl hack hno hlen => ?_, fun hl => ?_⟩
  · rw [exec_reportFrame_of_good hs (.inr hl) hgood fun _ => he, State.handReport_of_far hl]
    rfl
  · exact exec_reportFrame_of_bad hs (.inr hl) hlen fun hc => hno (hc.2 hl hack)
  · refine exec_reportFrame_of_not_taken (Link.takesReport_eq_false (.inr ?_))
    show l.loop ≠ .opened ∧ l.loop ≠ .far
    rcases hl with hl | hl <;> rw [hl] <;> decide

/-- Settles O35: a frame that is not good is a bad result, as the end of a slot without a frame is. -/
theorem missingAndBadReportsCountBad : Obligations.MissingAndBadReportsCountBad := by
  refine ⟨fun s x bytes hlen => ?_, fun s x => ?_⟩
  · intro l
    refine ⟨fun hs hl hbad => exec_reportFrame_of_bad hs hl hlen fun hc => hbad hc.1, fun hs => ?_⟩
    refine exec_reportFrame_of_not_taken (Link.takesReport_eq_false (.inl ?_))
    show l.slot ≠ .waiting
    rcases hs with hs | hs <;> rw [hs] <;> decide
  · intro l
    refine ⟨exec_slotEnd_of_waiting, fun hs => ?_, fun hs hc => ?_⟩
    · show Host.Outcome.next (s.endSlot x) = _
      rw [State.endSlot, show (s.links.get x).slot = .settled from hs]
    · have hvoid : l.endVoid = { l with
          slot := .settled
          prevWord := if l.position = 7 then none else l.prevWord } := by
        unfold Link.endVoid Link.settle
        rw [hc]
        by_cases h7 : l.position = 7
        · simp only [if_pos h7, Bool.false_eq_true, if_false]
        · simp only [if_neg h7]
      show Host.Outcome.next (s.endSlot x) = _
      rw [State.endSlot, show (s.links.get x).slot = .noResult from hs]
      dsimp only
      rw [show (s.links.get x).endVoid = _ from hvoid]

/-! ## The settlement of a superframe (R85, R86, R128, R129) -/

section
variable {s : State} {x : Axle}

/-- A complete word received twice is verified and handed on. -/
theorem settledSuperframe_of_verified (hc : (s.links.get x).complete = true)
    (hp : (s.links.get x).prevWord = some (s.links.get x).received)
    (hl : (s.links.get x).loop = .opened ∨ (s.links.get x).loop = .far) : settledSuperframe s x =
      let l := s.links.get x
      let v := inverterOfWord l.received
      latchedIf { s with
        links := s.links.set x { l with
          prevWord := some l.received
          ackVerified := l.loop == .far && l.received.getLsbD 3 }
        cu := s.cu.set x { s.cu.get x with inverter := v } }
        (v == .fault && (s.cu.get x).inverter != .fault) 9 := by
  have hloop : ((s.links.get x).loop == .opened || (s.links.get x).loop == .far) = true := by simpa using hl
  simp only [settledSuperframe, hc, hp, hloop, beq_self_eq_true, Bool.true_and, if_true]

/-- Any other word is kept as the previous one if it is complete, and hands nothing on. -/
theorem settledSuperframe_of_not_verified
    (h : (s.links.get x).complete = true → (s.links.get x).prevWord ≠ some (s.links.get x).received) :
    settledSuperframe s x = { s with
      links := s.links.set x { s.links.get x with
        prevWord := if (s.links.get x).complete then some (s.links.get x).received else none } } := by
  have hnot : ((s.links.get x).complete && (s.links.get x).prevWord == some (s.links.get x).received) = false := by
    cases hc : (s.links.get x).complete with
    | false => rfl
    | true => simpa using h hc
  simp only [settledSuperframe, hnot, Bool.false_and, Bool.false_eq_true, if_false]
  rfl

/-- What the handover of a report frame's contents leaves for the settlement. -/
theorem State.handReport_keeps (s : State) (x : Axle) (r : ReportFrame) :
    (∃ far speed, (s.handReport x r).links = s.links.set x { s.links.get x with farErrors := far, speed := speed }) ∧
    (∃ c, (s.handReport x r).cu = s.cu.set x c ∧ c.inverter = (s.cu.get x).inverter) ∧
    (s.handReport x r).eu.events.getLsbD 9 = s.eu.events.getLsbD 9 := by
  have hsample (t : State) (speed : Int) : (t.takeSample x speed).eu.events.getLsbD 9 = t.eu.events.getLsbD 9 := by
    by_cases hf : t.se.reference.freshness = .fresh
    · rw [State.takeSample_of_fresh hf]
      dsimp only
      rw [latchedIf_getLsbD _ _ (by decide), latchedIf_getLsbD _ _ (by decide)]
      show (_ || _ && false || _ && false) = _
      simp only [Bool.and_false, Bool.or_false]
    · rw [State.takeSample_of_not_fresh hf]
  unfold State.handReport
  dsimp only
  split
  · rw [hsample, State.takeSample_links, State.takeSample_cu]
    exact ⟨⟨_, _, rfl⟩, ⟨_, rfl, rfl⟩, rfl⟩
  · exact ⟨⟨_, (s.links.get x).speed, rfl⟩, ⟨s.cu.get x, (Axles.set_get _ _).symm, rfl⟩, rfl⟩

end

theorem goodSlot_received_seven {l : Link} (h : l.position = 7) (bit : Bool) :
    (goodSlot l bit).received = if bit then l.received ||| 0x80#8 else l.received := by
  simp only [goodSlot, h]
  rfl

/-- Settles O36: the settlement by whether the word is verified, on the link that the frame's good result leaves. -/
theorem completeSuperframesVerifyWord : Obligations.CompleteSuperframesVerifyWord := by
  intro s t x bytes l w inverter hs h7 hgood hl hrun
  have hloop : l.loop = .opened ∨ l.loop = .far := hl.imp_right And.left
  have hecho : l.loop = .far → l.ackVerified = true → EchoesTorque l bytes := fun hf =>
    hl.elim (fun ho => absurd (ho.symm.trans hf) (by decide)) And.right
  obtain ⟨⟨far, speed, hlinks⟩, ⟨c, hcu, hc⟩, hevent⟩ := s.handReport_keeps x (readReport bytes)
  have ht := Host.Outcome.next.inj (hrun.symm.trans (exec_reportFrame_of_good hs hloop hgood hecho))
  generalize s.handReport x (readReport bytes) = u at hlinks hcu hevent ht
  have hlink : u.links.get x = { l with farErrors := far, speed := speed } := by rw [hlinks, Axles.get_set]
  let g := goodSlot (u.links.get x) ((bytes.getD 0 0#8).getLsbD 3)
  have hg : g.complete = l.complete ∧ g.prevWord = l.prevWord ∧ g.loop = l.loop ∧ g.ackVerified = l.ackVerified := by
    simp only [g, hlink, goodSlot, and_self]
  obtain ⟨hcomplete, hprev, hgloop, hack⟩ := hg
  have hreceived : g.received = w := by
    refine (goodSlot_received_seven ?_ _).trans ?_ <;> rw [hlink]
    exact h7
  have hsettled : t = settledSuperframe { u with links := u.links.set x g } x := by
    rw [ht, afterGoodSlot]
    exact if_pos (by rw [hlink]; exact h7)
  have hget : ({ u with links := u.links.set x g } : State).links.get x = g := Axles.get_set _ _ _
  have hinverter : (u.cu.get x).inverter = (s.cu.get x).inverter := by rw [hcu, Axles.get_set, hc]
  have hotherlink : u.links.get x.other = s.links.get x.other := by rw [hlinks, Axles.get_set_other]
  have hothercu : u.cu.get x.other = s.cu.get x.other := by rw [hcu, Axles.get_set_other]
  have hword : inverterOfWord g.received = inverter := by rw [hreceived]; rfl
  by_cases hv : l.complete = true ∧ l.prevWord = some w
  · have heq := settledSuperframe_of_verified (s := { u with links := u.links.set x g }) (x := x)
      (by rw [hget, hcomplete]; exact hv.1) (by rw [hget, hprev, hreceived]; exact hv.2) (by rw [hget, hgloop]; exact hloop)
    rw [hget] at heq
    dsimp only at heq
    rw [hword, hreceived, hgloop, hinverter] at heq
    rw [hsettled, heq]
    refine ⟨fun _ _ => ⟨?_, ?_, ?_, ?_⟩, fun _ hne => absurd hv.2 hne, fun hf => absurd (hv.1.symm.trans hf) (by decide), ?_, ?_⟩
    · simp
    · simp
    · simp
    · rw [latchedIf_getLsbD _ _ (by decide)]
      dsimp only
      rw [hevent]
      generalize s.eu.events.getLsbD 9 = was
      simp
    · simp [hotherlink]
    · simp [hothercu]
  · have heq := settledSuperframe_of_not_verified (s := { u with links := u.links.set x g }) (x := x)
      (by rw [hget, hcomplete, hprev, hreceived]; exact fun hc hp => hv ⟨hc, hp⟩)
    rw [hget, hcomplete, hreceived] at heq
    rw [hsettled, heq]
    refine ⟨fun hc hp => absurd ⟨hc, hp⟩ hv, fun hc _ => ⟨?_, hinverter, ?_, hevent⟩, fun hc => ⟨?_, hinverter, ?_, hevent⟩, ?_,
      hothercu⟩
    · simp [hc]
    · simp [hack]
    · simp [hc]
    · simp [hack]
    · simp [hotherlink]

end Sys2Proof.Machine
end

section
/-! Openings of slots: O37, O38. What is done on one axle's link reads and changes that axle's link and capabilities and
latches events; so what is done on the one link commutes with what is done on the other (`Local.commute`). -/

namespace Sys2Proof.Machine

/-! ## Operations on one axle -/

/-- The EU after events of these bits have latched, one after the other. -/
def latchAll (u : EventUnit) (bits : List Nat) : EventUnit :=
  bits.foldl (fun u b => ⟨u.events ||| (1#16 <<< b), u.mask, ((u.events ||| (1#16 <<< b)) &&& ~~~u.mask) != 0#16⟩) u

theorem latchAll_append (u : EventUnit) (l l' : List Nat) : latchAll u (l ++ l') = latchAll (latchAll u l) l' :=
  List.foldl_append

theorem latchAll_perm {l l' : List Nat} (h : l.Perm l') (u : EventUnit) : latchAll u l = latchAll u l' :=
  h.foldl_eq' (fun a _ b _ u => by simp only [BitVec.or_assoc, BitVec.or_comm (1#16 <<< a)]) u

theorem latchAll_comm (u : EventUnit) (l l' : List Nat) : latchAll (latchAll u l) l' = latchAll (latchAll u l') l := by
  rw [← latchAll_append, ← latchAll_append, latchAll_perm List.perm_append_comm]

theorem latchedIf_eq_latchAll (s : State) (onset : Bool) (bit : Nat) :
    latchedIf s onset bit = { s with eu := latchAll s.eu (if onset then [bit] else []) } := by
  cases onset <;> rfl

/-- What an operation on one axle leaves: its link, its capabilities, the events latched. -/
structure AxleResult where
  link : Link
  capability : AxleCapability
  latched : List Nat

/-- The state after an operation on an axle. -/
def State.apply (s : State) (x : Axle) (r : AxleResult) : State :=
  { s with
    links := s.links.set x r.link
    cu := s.cu.set x r.capability
    eu := latchAll s.eu r.latched }

theorem axles_set_comm {α : Type} (p : Axles α) (x : Axle) (a b : α) :
    (p.set x a).set x.other b = (p.set x.other b).set x a := by cases x <;> rfl

theorem State.apply_comm (s : State) (x : Axle) (r q : AxleResult) :
    (s.apply x r).apply x.other q = (s.apply x.other q).apply x r := by
  simp only [State.apply, axles_set_comm, latchAll_comm]

theorem State.apply_apply (s : State) (x : Axle) (r q : AxleResult) :
    (s.apply x r).apply x q = s.apply x ⟨q.link, q.capability, r.latched ++ q.latched⟩ := by
  simp only [State.apply, Axles.set_set, latchAll_append]

theorem State.apply_self (s : State) (x : Axle) : s.apply x ⟨s.links.get x, s.cu.get x, []⟩ = s := by
  simp only [State.apply, Axles.set_get]
  rfl

/-- An operation on an axle: what it leaves depends on the axle's link and capabilities, and on the blocks that no such
operation changes. -/
def Local (x : Axle) (f : State → State) : Prop :=
  ∃ F : OperatingState → DemandUnit → Engine → Link → AxleCapability → AxleResult,
    ∀ s, f s = s.apply x (F s.osc s.du s.ae (s.links.get x) (s.cu.get x))

section
variable {x : Axle} {f g : State → State}

/-- An operation on an axle leaves the other axle's link. -/
theorem Local.other_link (hf : Local x f) (s : State) : (f s).links.get x.other = s.links.get x.other := by
  obtain ⟨F, hF⟩ := hf
  rw [hF]
  exact Axles.get_set_other _ _ _

/-- What is done on one axle and what is done on the other may be done in either order. -/
theorem Local.commute (hf : Local x f) (hg : Local x.other g) (s : State) : g (f s) = f (g s) := by
  obtain ⟨F, hF⟩ := hf
  obtain ⟨G, hG⟩ := hg
  have hlink (r : AxleResult) : (s.apply x.other r).links.get x = s.links.get x ∧ (s.apply x.other r).cu.get x = s.cu.get x := by
    have hl := Axles.get_set_other s.links x.other r.link
    have hc := Axles.get_set_other s.cu x.other r.capability
    rw [other_other] at hl hc
    exact ⟨hl, hc⟩
  have hother (r : AxleResult) : (s.apply x r).links.get x.other = s.links.get x.other ∧
      (s.apply x r).cu.get x.other = s.cu.get x.other := ⟨Axles.get_set_other _ _ _, Axles.get_set_other _ _ _⟩
  rw [hF s, hG s, hF, hG, (hlink _).1, (hlink _).2, (hother _).1, (hother _).2]
  exact State.apply_comm _ _ _ _

theorem Local.congr (hf : Local x f) (h : ∀ s, g s = f s) : Local x g := (funext h : g = f) ▸ hf

theorem local_id (x : Axle) : Local x id := ⟨fun _ _ _ l c => ⟨l, c, []⟩, fun s => (s.apply_self x).symm⟩

theorem Local.comp (hf : Local x f) (hg : Local x g) : Local x (fun s => g (f s)) := by
  obtain ⟨F, hF⟩ := hf
  obtain ⟨G, hG⟩ := hg
  refine ⟨fun o d e l c => ⟨(G o d e (F o d e l c).link (F o d e l c).capability).link,
    (G o d e (F o d e l c).link (F o d e l c).capability).capability,
    (F o d e l c).latched ++ (G o d e (F o d e l c).link (F o d e l c).capability).latched⟩, fun s => ?_⟩
  dsimp only
  rw [hG (f s), hF s, ← State.apply_apply]
  simp only [State.apply, Axles.get_set]

/-- A choice by the axle's link between two operations on the axle. -/
theorem Local.choice (hf : Local x f) (hg : Local x g) (p : Link → Prop) [DecidablePred p] :
    Local x (fun s => if p (s.links.get x) then f s else g s) := by
  obtain ⟨F, hF⟩ := hf
  obtain ⟨G, hG⟩ := hg
  refine ⟨fun o d e l c => if p l then F o d e l c else G o d e l c, fun s => ?_⟩
  by_cases hp : p (s.links.get x)
  · simp only [if_pos hp, hF]
  · simp only [if_neg hp, hG]

/-- An operation that changes the link alone. -/
theorem local_link (x : Axle) (h : OperatingState → DemandUnit → Engine → Link → Link) :
    Local x (fun s => { s with links := s.links.set x (h s.osc s.du s.ae (s.links.get x)) }) :=
  ⟨fun o d e l c => ⟨h o d e l, c, []⟩, fun s => by simp only [State.apply, Axles.set_get]; rfl⟩

end

/-! ## Slot results, the end of a slot and openings are operations on their axle -/

theorem local_afterBadSlot (x : Axle) : Local x (fun s => afterBadSlot s x) := by
  refine ⟨fun _ _ _ l c =>
    let impaired : Bool := l.state == .up && (badSlot l).state == .impaired
    let lost : Bool := l.state == .impaired && (badSlot l).state == .lost
    ⟨badSlot l, if lost then ⟨0, 0, 0, 0, .off⟩ else c,
      (if impaired then [if x = .front then 5 else 6] else []) ++ if lost then [if x = .front then 7 else 8] else []⟩,
    fun s => ?_⟩
  unfold afterBadSlot State.apply
  dsimp only
  rw [latchedIf_eq_latchAll, latchedIf_eq_latchAll, latchAll_append]
  by_cases hlost : ((s.links.get x).state == .impaired && (badSlot (s.links.get x)).state == .lost) = true
  · simp only [if_pos hlost]
  · simp only [if_neg hlost, Axles.set_get]

theorem local_settledSuperframe (x : Axle) : Local x (fun s => settledSuperframe s x) := by
  refine ⟨fun _ _ _ l c =>
    let handed : Bool := l.complete && l.prevWord == some l.received && (l.loop == .opened || l.loop == .far)
    ⟨{ l with
        prevWord := if l.complete then some l.received else none
        ackVerified := if handed then l.loop == .far && l.received.getLsbD 3 else l.ackVerified },
      if handed then { c with inverter := inverterOfWord l.received } else c,
      if (handed && inverterOfWord l.received == .fault && c.inverter != .fault) then [9] else []⟩, fun s => ?_⟩
  unfold settledSuperframe State.apply
  dsimp only
  rw [latchedIf_eq_latchAll]
  by_cases hh : ((s.links.get x).complete && (s.links.get x).prevWord == some (s.links.get x).received &&
      ((s.links.get x).loop == .opened || (s.links.get x).loop == .far)) = true
  · simp only [if_pos hh]
  · simp only [if_neg hh, Axles.set_get]

theorem local_slotResult (x : Axle) (good bit : Bool) : Local x (fun s => s.slotResult x good bit) := by
  cases good with
  | false => simpa only [State.slotResult_bad] using local_afterBadSlot x
  | true =>
    have hgood : Local x (fun s => { s with links := s.links.set x (goodSlot (s.links.get x) bit) }) :=
      local_link x fun _ _ _ l => goodSlot l bit
    have hchoice := (hgood.comp (local_settledSuperframe x)).choice hgood (fun l => l.position = 7)
    simpa only [State.slotResult_good, afterGoodSlot] using hchoice

theorem local_endSlot (x : Axle) : Local x (fun s => s.endSlot x) := by
  have hvoid : Local x (fun s => { s with links := s.links.set x (s.links.get x).endVoid }) :=
    local_link x fun _ _ _ l => l.endVoid
  have hchoice := (local_slotResult x false false).choice (hvoid.choice (local_id x) (fun l => l.slot = .noResult))
    (fun l => l.slot = .waiting)
  refine hchoice.congr fun s => ?_
  unfold State.endSlot
  cases (s.links.get x).slot <;> simp

theorem local_takeLooped (x : Axle) (e : BitVec 32) : Local x (fun s => s.takeLooped x e) := by
  have hgood (bit : Bool) := local_slotResult x true bit
  have hbad := local_slotResult x false false
  have hone : Local x (fun s => s.slotResult x true ((byteAt ((s.links.get x).looped e) 0).getLsbD 3)) := by
    have hchoice := (hgood true).choice (hgood false) (fun l => (byteAt (l.looped e) 0).getLsbD 3 = true)
    refine hchoice.congr fun s => ?_
    cases (byteAt ((s.links.get x).looped e) 0).getLsbD 3 <;> simp
  have hchoice := (hone.choice hbad (fun l => l.goodLoop (l.looped e) = true)).choice (local_id x)
    (fun l => l.loop = .nearTransparent ∨ l.loop = .nearOpaque)
  exact hchoice

theorem local_opened (x : Axle) (position : Nat) : Local x (fun s => s.opened x position) :=
  local_link x fun o d e l => l.openSlot position o.device d.demand.regenPermitted (e.record.output.get x)

theorem State.openSlot_local (x : Axle) (position : Nat) (e : BitVec 32) : Local x (fun s => s.openSlot x position e) :=
  (local_opened x position).comp (local_takeLooped x e)

/-! ## The link after its next slot has opened (R114, R115, R125 to R128) -/

/-- Byte 0 of a command frame, field by field or as a sum. -/
theorem commandByte_eq : ∀ k < 8, ∀ m e r t : Bool,
    fieldBits (k % 8) 0 ||| flagBit m 3 ||| flagBit e 4 ||| flagBit r 5 ||| flagBit t 6 = commandByte k m e r t := by
  decide

theorem maintenanceWord_eq (d : DeviceState) (loop : LoopState) : maintenanceWord d loop =
    (match d with
      | .init => 0#8
      | .standby => 1#8
      | .active => 2#8
      | .service => 3#8
      | .safeHold => 4#8) ||| (if loop = .far then 8#8 else 0#8) := by
  cases d <;> cases loop <;> rfl

/-- The slot that opens after frame number `p` is the one that section 8.7.5 lays out. -/
theorem Link.openSlot_eq_openedLink (l : Link) (p : Nat) (d : DeviceState) (regen : Bool) (output : Int) :
    l.openSlot ((p + 1) % 8) d regen output = openedLink { l with position := p } d regen output := by
  have hk : (p + 1) % 8 < 8 := Nat.mod_lt _ (by decide)
  unfold Link.openSlot openedLink
  dsimp only
  generalize (p + 1) % 8 = k at hk
  have hbytes (m : Link) (hm : m.position = k) : (m.command d regen output).bytes =
      commandBytes (commandByte k (m.sentWord.getLsbD k) (d == .active) regen (testing d m.loop)) (torqueField d m output) := by
    unfold CommandFrame.bytes Link.command commandBytes withCheck
    dsimp only
    rw [hm, commandByte_eq k hk]
    rfl
  by_cases h0 : k = 0
  · subst h0
    rw [hbytes _ (by simp [Link.beginSuperframe])]
    simp only [Link.beginSuperframe, if_true, maintenanceWord_eq, testing, torqueField, lineBytes] <;> rfl
  · rw [hbytes _ (by simp [Link.beginSuperframe, h0])]
    simp only [Link.beginSuperframe, h0, if_false, testing, torqueField, lineBytes]

theorem State.nextSlot_of_settled {s : State} {x : Axle} (h : (s.links.get x).slot = .settled) (e : BitVec 32) :
    s.nextSlot x e = s.openSlot x (((s.links.get x).position + 1) % 8) e := by
  rw [State.nextSlot, if_neg (by rw [h]; decide), State.endSlot, h]

theorem State.takeLooped_of_not_near {s : State} {x : Axle}
    (h : (s.links.get x).loop = .opened ∨ (s.links.get x).loop = .far) (e : BitVec 32) : s.takeLooped x e = s := by
  refine if_neg ?_
  rcases h with h | h <;> rw [h] <;> decide

/-- The state with the next slot opened on a link, before a near loopback takes its frame. -/
theorem State.opened_eq (s : State) (x : Axle) : s.opened x (((s.links.get x).position + 1) % 8) = { s with
    links := s.links.set x
      (openedLink (s.links.get x) s.osc.device s.du.demand.regenPermitted (s.ae.record.output.get x)) } := by
  rw [State.opened, Link.openSlot_eq_openedLink]

/-- Both links settled: both slots open before either near loopback takes its frame. -/
theorem nextSlots_of_settled {s : State} (h : ∀ x, (s.links.get x).slot = .settled) (e1 e2 : BitVec 32) :
    (s.nextSlot .front e1).nextSlot .rear e2 =
      (State.takeLooped { s with
        links := ⟨openedLink s.links.front s.osc.device s.du.demand.regenPermitted s.ae.record.output.front,
          openedLink s.links.rear s.osc.device s.du.demand.regenPermitted s.ae.record.output.rear⟩ } .front e1).takeLooped
        .rear e2 := by
  have hrear : (s.openSlot .front (((s.links.get .front).position + 1) % 8) e1).links.get .rear = s.links.get .rear :=
    (State.openSlot_local .front _ e1).other_link s
  rw [State.nextSlot_of_settled (h .front), State.nextSlot_of_settled (by rw [hrear]; exact h .rear), hrear,
    State.openSlot_eq, State.openSlot_eq]
  have hcomm := (local_takeLooped .front e1).commute (local_opened .rear (((s.links.get .rear).position + 1) % 8))
    (s.opened .front (((s.links.get .front).position + 1) % 8))
  refine congrArg (fun t : State => t.takeLooped .rear e2) (hcomm.trans ?_)
  refine congrArg (fun t : State => t.takeLooped .front e1) ?_
  rw [State.opened_eq]
  exact State.opened_eq _ .rear

/-- A slot that has ended is settled, or the slot timer is stopped. -/
theorem State.endSlot_slot (s : State) (x : Axle) (h : (s.links.get x).slot ≠ .none) :
    ((s.endSlot x).links.get x).slot = .settled ∧ ((s.endSlot x).links.get x).position = (s.links.get x).position := by
  have hfollows := (s.endSlot_moves x).follows x
  refine ⟨?_, hfollows.position⟩
  unfold State.endSlot
  split
  · rw [State.slotResult_bad, afterBadSlot_links, Axles.get_set]
    rfl
  · dsimp only
    rw [Axles.get_set]
    unfold Link.endVoid
    split <;> rfl
  · next hn => exact absurd hn h
  · next hs => exact hs

/-- Settles O37: with both slots settled nothing else happens; a slot not yet settled ends before the other axle's slot
opens or after it, which is the same. -/
theorem slotOpeningSendsCommandFrames : Obligations.SlotOpeningSendsCommandFrames := by
  intro s e1 e2
  refine ⟨fun hloop hslot => ?_, fun t u hslot ht hu => ?_⟩
  · intro next
    have hkeeps (x : Axle) : (next x).loop = .opened ∨ (next x).loop = .far := hloop x
    show Host.Outcome.next ((s.nextSlot .front e1).nextSlot .rear e2) = _
    rw [nextSlots_of_settled hslot]
    refine congrArg Host.Outcome.next ((congrArg (fun t : State => t.takeLooped .rear e2)
      (State.takeLooped_of_not_near ?_ e1)).trans (State.takeLooped_of_not_near ?_ e2))
    · exact hkeeps .front
    · exact hkeeps .rear
  · obtain rfl : s.endSlot .front = t := Host.Outcome.next.inj ht
    obtain rfl : (s.endSlot .front).endSlot .rear = u := Host.Outcome.next.inj hu
    let a := s.endSlot .front
    let b := a.endSlot .rear
    obtain ⟨hfront, hfrontpos⟩ := s.endSlot_slot .front (hslot .front)
    have harear : a.links.get .rear = s.links.get .rear := (local_endSlot .front).other_link s
    have hbfront : b.links.get .front = a.links.get .front := (local_endSlot .rear).other_link a
    obtain ⟨hrear, hrearpos⟩ := a.endSlot_slot .rear (by rw [harear]; exact hslot .rear)
    let v := a.openSlot .front (((s.links.get .front).position + 1) % 8) e1
    have hvrear : v.links.get .rear = a.links.get .rear := (State.openSlot_local .front _ e1).other_link a
    have hswap : v.endSlot .rear = b.openSlot .front (((s.links.get .front).position + 1) % 8) e1 :=
      (State.openSlot_local .front _ e1).commute (local_endSlot .rear) a
    have hleft : (s.nextSlot .front e1).nextSlot .rear e2 =
        (v.endSlot .rear).openSlot .rear (((s.links.get .rear).position + 1) % 8) e2 := by
      have hv : s.nextSlot .front e1 = v := if_neg (hslot .front)
      rw [hv, State.nextSlot, if_neg (by rw [hvrear, harear]; exact hslot .rear), hvrear, harear]
    have hright : (b.nextSlot .front e1).nextSlot .rear e2 =
        (v.endSlot .rear).openSlot .rear (((s.links.get .rear).position + 1) % 8) e2 := by
      have hw : b.nextSlot .front e1 = v.endSlot .rear := by
        rw [State.nextSlot_of_settled (by rw [hbfront]; exact hfront), hbfront, hfrontpos, hswap]
      have hwrear : (v.endSlot .rear).links.get .rear = b.links.get .rear := by
        rw [hswap]
        exact (State.openSlot_local .front _ e1).other_link b
      rw [hw, State.nextSlot_of_settled (by rw [hwrear]; exact hrear), hwrear, hrearpos, harear]
    exact congrArg Host.Outcome.next (hleft.trans hright.symm)

/-! ## The frame of the slot in a near loopback (R118, R131) -/

/-- A frame of four bytes. -/
theorem exists_four {l : List Byte} (h : l.length = 4) : ∃ a b c d, l = [a, b, c, d] := by
  match l, h with
  | [a, b, c, d], _ => exact ⟨a, b, c, d, rfl⟩

theorem Link.looped_eq_returnedFrame {l : Link} (h : l.sentFrame.length = 4) (e : BitVec 32) :
    l.looped e = returnedFrame l e := by
  obtain ⟨a, b, c, d, hl⟩ := exists_four h
  simp [Link.looped, returnedFrame, errorBytes, hl]

theorem Link.goodLoop_iff (l : Link) (e : BitVec 32) : l.goodLoop (returnedFrame l e) = true ↔ Intact l (returnedFrame l e) := by
  have hword : wordAt (returnedFrame l e) 1 = l.sentTorque ↔ _ := wordAt_eq_iff _ _ _ _
  unfold Link.goodLoop Intact
  rw [Bool.and_eq_true, Bool.and_eq_true, beq_iff_eq, beq_iff_eq, hword, and_assoc]
  refine and_congr ?_ Iff.rfl
  simp only [checkOk, returnedFrame, List.getLast?_cons_cons, List.getLast?_singleton, List.dropLast_cons_cons,
    List.dropLast_singleton, beq_iff_eq, Option.some_inj]
  exact eq_comm

/-- What a near loopback takes in a slot just opened. -/
theorem takesOwnFrame_takeLooped {s : State} {x : Axle} (h : (s.links.get x).sentFrame.length = 4) (e : BitVec 32) :
    TakesOwnFrame s x e (s.takeLooped x e) := by
  unfold TakesOwnFrame
  intro l near frame
  have hframe : l.looped e = frame := Link.looped_eq_returnedFrame h e
  have hlooped (hn : near) : s.takeLooped x e =
      if l.goodLoop frame then s.slotResult x true ((byteAt frame 0).getLsbD 3) else s.slotResult x false false := by
    rw [← hframe]
    exact if_pos hn
  refine ⟨fun hn => if_neg hn, fun hn hi => ?_, fun hn hi => ?_⟩
  · rw [hlooped hn, if_pos ((l.goodLoop_iff e).2 hi), State.slotResult_good]
    rfl
  · rw [hlooped hn, if_neg (mt (l.goodLoop_iff e).1 hi), State.slotResult_bad]

/-- The frame that an opening sends: byte 0 with the frame number, the torque field, the check value. -/
theorem openedLink_sentFrame (l : Link) (d : DeviceState) (regen : Bool) (output : Int) : ∃ m test b1 b2,
    (openedLink l d regen output).sentFrame =
      let b0 := commandByte ((l.position + 1) % 8) m (d == .active) regen test
      [b0, b1, b2, crc8 [b0, b1, b2]] := ⟨_, _, _, _, rfl⟩

theorem commandByte_number : ∀ k < 8, ∀ m e r t : Bool, (commandByte k m e r t).toNat % 8 = k := by decide

theorem eq_zero_of_xor_eq_self {w : Nat} {a v : BitVec w} (h : a ^^^ v = a) : v = 0#w := by
  have hx := congrArg (a ^^^ ·) h
  simpa only [← BitVec.xor_assoc, BitVec.xor_self, BitVec.zero_xor] using hx

theorem extract_eq_zero_of_xor_mod {b v : Byte} (h : (b ^^^ v).toNat % 8 = b.toNat % 8) : v.extractLsb' 0 3 = 0#3 := by
  have hextract : (b ^^^ v).extractLsb' 0 3 = b.extractLsb' 0 3 :=
    BitVec.eq_of_toNat_eq (by simpa [BitVec.extractLsb'_toNat] using h)
  rw [BitVec.extractLsb'_xor] at hextract
  exact eq_zero_of_xor_eq_self hextract

section
variable {l : Link} {b0 b1 b2 c : Byte}

/-- When a frame returns intact, byte by byte. -/
theorem intact_returnedFrame_iff (h : l.sentFrame = [b0, b1, b2, c]) (e : BitVec 32) : Intact l (returnedFrame l e) ↔
    crc8 [b0 ^^^ e.extractLsb' 24 8, b1 ^^^ e.extractLsb' 16 8, b2 ^^^ e.extractLsb' 8 8] = c ^^^ e.extractLsb' 0 8 ∧
      (b0 ^^^ e.extractLsb' 24 8).toNat % 8 = l.position ∧ b1 ^^^ e.extractLsb' 16 8 = b1 ∧ b2 ^^^ e.extractLsb' 8 8 = b2 := by
  simp [Intact, returnedFrame, h]

variable (h : l.sentFrame = [b0, b1, b2, crc8 [b0, b1, b2]]) (hn : b0.toNat % 8 = l.position)
include h hn

theorem intact_of_sound_path : Intact l (returnedFrame l 0#32) := by
  rw [intact_returnedFrame_iff h]
  simp [hn]

/-- A spoiled frame number or torque field is seen. -/
theorem not_intact_of_spoiled_fields {e : BitVec 32} (he : e.extractLsb' 24 3 ≠ 0#3 ∨ e.extractLsb' 8 16 ≠ 0#16) :
    ¬Intact l (returnedFrame l e) := by
  rw [intact_returnedFrame_iff h]
  rintro ⟨-, hnumber, h1, h2⟩
  rcases he with he | he
  · refine he ?_
    have hzero := extract_eq_zero_of_xor_mod (hnumber.trans hn.symm)
    refine BitVec.eq_of_toNat_eq ?_
    have hnat := congrArg BitVec.toNat hzero
    simp only [BitVec.extractLsb'_toNat, Nat.shiftRight_eq_div_pow] at hnat ⊢
    simp at hnat ⊢
    omega
  · refine he (BitVec.eq_of_toNat_eq ?_)
    have hn1 := congrArg BitVec.toNat (eq_zero_of_xor_eq_self h1)
    have hn2 := congrArg BitVec.toNat (eq_zero_of_xor_eq_self h2)
    simp only [BitVec.extractLsb'_toNat, Nat.shiftRight_eq_div_pow] at hn1 hn2 ⊢
    simp at hn1 hn2 ⊢
    omega

omit hn in
/-- A spoiled check value alone is seen. -/
theorem not_intact_of_spoiled_check {e : BitVec 32} (he : e ≠ 0#32) (hlt : e.toNat < 256) :
    ¬Intact l (returnedFrame l e) := by
  have hhigh (k : Nat) (hk : 8 ≤ k) : e.extractLsb' k 8 = 0#8 := by
    refine BitVec.eq_of_toNat_eq ?_
    have hpow : 256 ≤ 2 ^ k := Nat.pow_le_pow_right (n := 2) (by decide) hk
    rw [BitVec.extractLsb'_toNat, Nat.shiftRight_eq_div_pow, Nat.div_eq_of_lt (hlt.trans_le hpow)]
    rfl
  rw [intact_returnedFrame_iff h, hhigh 24 (by decide), hhigh 16 (by decide), hhigh 8 (by decide)]
  simp only [BitVec.xor_zero]
  rintro ⟨hcheck, -⟩
  have hzero := congrArg BitVec.toNat (eq_zero_of_xor_eq_self hcheck.symm)
  refine he (BitVec.eq_of_toNat_eq ?_)
  rw [BitVec.extractLsb'_toNat] at hzero
  simp at hzero ⊢
  omega

end

/-- Settles O38: both slots open, then each near loopback takes its frame; what is spoiled on the path shows in a field, in
the frame number or in the check value. -/
theorem nearLoopbackTakesOwnFrame : Obligations.NearLoopbackTakesOwnFrame := by
  intro s e1 e2 opened
  refine ⟨fun hslot => ?_, fun x => ?_⟩
  · have hlength (x : Axle) : (opened x).sentFrame.length = 4 := by
      obtain ⟨m, test, b1, b2, hsent⟩ := openedLink_sentFrame (s.links.get x) s.osc.device s.du.demand.regenPermitted
        (s.ae.record.output.get x)
      exact congrArg List.length hsent
    let a : State := { s with links := ⟨opened .front, opened .rear⟩ }
    have hrear : (a.takeLooped .front e1).links.get .rear = opened .rear := (local_takeLooped .front e1).other_link a
    refine ⟨a.takeLooped .front e1, (a.takeLooped .front e1).takeLooped .rear e2, takesOwnFrame_takeLooped (s := a) (x := .front) (hlength .front) e1,
      takesOwnFrame_takeLooped (by rw [hrear]; exact hlength .rear) e2, ?_⟩
    exact congrArg Host.Outcome.next (nextSlots_of_settled hslot e1 e2)
  · intro l
    obtain ⟨m, test, b1, b2, hsent⟩ := openedLink_sentFrame (s.links.get x) s.osc.device s.du.demand.regenPermitted
      (s.ae.record.output.get x)
    have hnumber := commandByte_number (((s.links.get x).position + 1) % 8) (Nat.mod_lt _ (by decide)) m
      (s.osc.device == .active) s.du.demand.regenPermitted test
    exact ⟨intact_of_sound_path hsent hnumber, fun e he => not_intact_of_spoiled_fields hsent hnumber he,
      fun e he hlt => not_intact_of_spoiled_check hsent he hlt⟩

end Sys2Proof.Machine
end

section
/-! The calibration image and the end of INIT: O6, O7. -/

namespace Sys2Proof.Machine

/-! ## The image of a store (R7, R164, R165) -/

theorem Store.image_byte (c : Store) (k offset : Nat) : c.image.byte k offset = c.byte k offset := by
  have hdamaged : c.image.damaged.get k = decide (c.sectors.get k = .damaged) := by
    unfold Sectors.get
    split <;> rfl
  simp only [Image.byte, Store.byte, hdamaged, decide_eq_true_eq]
  rfl

/-- The bytes of sectors 1 to 3, one after the other. -/
theorem sectorBytes_append (m : Image) : m.sectorBytes 1 ++ m.sectorBytes 2 ++ m.sectorBytes 3 =
    (List.range 768).map fun n => m.byte (1 + n / 256) (n % 256) := by
  have hsector (k : Nat) : (List.range 256).map (fun n => m.byte (1 + (256 * k + n) / 256) ((256 * k + n) % 256)) =
      m.sectorBytes (1 + k) := by
    refine List.map_congr_left fun n hn => ?_
    have hlt := List.mem_range.1 hn
    rw [Nat.mul_add_mod, Nat.mod_eq_of_lt hlt, Nat.mul_add_div (by decide), Nat.div_eq_of_lt hlt, Nat.add_zero]
  have hsplit : List.range 768 = (List.range 256).map (256 * 0 + ·) ++ (List.range 256).map (256 * 1 + ·) ++
      (List.range 256).map (256 * 2 + ·) := by
    rw [show 768 = 256 * 2 + 256 from rfl, List.range_add, show 256 * 2 = 256 + 256 from rfl, List.range_add]
    simp
  simp only [hsplit, List.map_append, List.map_map, Function.comp_def, hsector]

theorem Image.valid_iff (m : Image) : m.valid = true ↔ (∀ k ≤ 3, m.damaged.get k = false) ∧ m.byte 0 0 = 0xA5#8 ∧
    m.byte 0 1 = 0x3C#8 ∧ crc32 (m.sectorBytes 1 ++ m.sectorBytes 2 ++ m.sectorBytes 3) = m.storedCrc := by
  have hsectors : m.damaged.toList.all (!·) = true ↔ ∀ k ≤ 3, m.damaged.get k = false := by
    refine ⟨fun h k hk => ?_, fun h => ?_⟩
    · simp only [Sectors.toList, List.all_cons, List.all_nil, Bool.and_true, Bool.and_eq_true, Bool.not_eq_true'] at h
      obtain ⟨h0, h1, h2, h3⟩ := h
      interval_cases k
      · exact h0
      · exact h1
      · exact h2
      · exact h3
    · have h0 : m.damaged.s0 = false := h 0 (by decide)
      have h1 : m.damaged.s1 = false := h 1 (by decide)
      have h2 : m.damaged.s2 = false := h 2 (by decide)
      have h3 : m.damaged.s3 = false := h 3 (by decide)
      simp [Sectors.toList, h0, h1, h2, h3]
  rw [Image.valid, Bool.and_eq_true, Bool.and_eq_true, Bool.and_eq_true, beq_iff_eq, beq_iff_eq, beq_iff_eq, hsectors,
    and_assoc, and_assoc]

/-- A store is valid by its own bytes (R165). -/
theorem Store.image_valid_iff (c : Store) : c.image.valid = true ↔
    (∀ k ≤ 3, c.sectors.get k ≠ .damaged) ∧ c.byte 0 0 = 0xA5#8 ∧ c.byte 0 1 = 0x3C#8 ∧
      crc32 ((List.range 768).map (fun n => c.byte (1 + n / 256) (n % 256))) =
        c.byte 0 4 ++ c.byte 0 5 ++ c.byte 0 6 ++ c.byte 0 7 := by
  have hdamaged (k : Nat) : c.image.damaged.get k = false ↔ c.sectors.get k ≠ .damaged := by
    have hget : c.image.damaged.get k = decide (c.sectors.get k = .damaged) := by
      unfold Sectors.get
      split <;> rfl
    rw [hget, decide_eq_false_iff_not]
  simp only [Image.valid_iff, sectorBytes_append, Image.storedCrc, Store.image_byte, hdamaged]

/-- A store whose sector 0 lists no byte has no marker. -/
theorem Store.image_not_valid_of_blank {c : Store} (h : ∀ cell ∈ c.cells, 256 ≤ cell.1) : c.image.valid = false := by
  rw [Bool.eq_false_iff, Ne, Store.image_valid_iff]
  rintro ⟨hsectors, hmarker, -⟩
  rw [Store.byte_of_not_damaged (hsectors 0 (by decide)),
    readCell_of_lt fun cell hc => (by decide : 256 * 0 + 0 < 256).trans_le (h cell hc)] at hmarker
  exact absurd hmarker (by decide)

/-! ## The parameters (R164) -/

theorem Image.u8_lt (m : Image) (k offset : Nat) : m.u8 k offset < 256 := (m.byte k offset).isLt

theorem Image.s16_eq (m : Image) (k offset : Nat) : m.s16 k offset =
    if m.u16 k offset < 32768 then (m.u16 k offset : Int) else (m.u16 k offset : Int) - 65536 := by
  have hhi := m.u8_lt k offset
  have hlo := m.u8_lt k (offset + 1)
  have hlt : m.u16 k offset < 65536 := by
    unfold Image.u16
    omega
  rw [Image.s16, BitVec.toInt_eq_toNat_cond, BitVec.toNat_ofNat, Nat.mod_eq_of_lt hlt]
  split <;> split <;> omega

theorem getLsbD_zero_iff (b : Byte) : b.getLsbD 0 = true ↔ b.toNat % 2 = 1 := by
  simp [BitVec.getLsbD, Nat.testBit_zero]

/-- The parameters of a mode stand in the line of its number. -/
theorem mode_of_mem {mode : Mode} {n : Nat}
    (h : (mode, n) ∈ [(Mode.normal, 0), (Mode.tow, 1), (Mode.terrain, 2), (Mode.rear, 3)]) :
    mode.code = n ∧ mode.offset = 0x14 + 12 * n := by
  simp only [List.mem_cons, Prod.mk.injEq, List.not_mem_nil, or_false] at h
  rcases h with ⟨rfl, rfl⟩ | ⟨rfl, rfl⟩ | ⟨rfl, rfl⟩ | ⟨rfl, rfl⟩ <;> exact ⟨rfl, rfl⟩

theorem slipBlock_of_mem {x : Axle} {o : Nat} (h : (x, o) ∈ [(Axle.front, 0x00), (Axle.rear, 0x80)]) : slipBlock x = o := by
  simp only [List.mem_cons, Prod.mk.injEq, List.not_mem_nil, or_false] at h
  rcases h with ⟨rfl, rfl⟩ | ⟨rfl, rfl⟩ <;> rfl

/-- Settles O7: the criteria on the store's own bytes; each parameter by its definition. -/
theorem imageValidityCriteria : Obligations.ImageValidityCriteria := by
  refine ⟨fun c => ⟨c.image_valid_iff, Store.image_not_valid_of_blank, fun k _ off => c.image_byte k off⟩, fun m => ?_⟩
  intro u8 u16
  refine ⟨fun mode n hmem => ?_, fun _ => rfl, rfl, rfl, rfl, ?_, ?_, rfl, rfl, ?_, ?_, ?_, ?_, fun x o hmem => ?_⟩
  · intro o
    obtain ⟨hcode, hoffset⟩ := mode_of_mem hmem
    refine ⟨?_, ?_, ?_, ?_, ?_, ?_, ?_, fun band j => ?_⟩
    · simp [Image.shareLow, hoffset, u16, u8, o, Image.u16, Image.u8]
    · simp [Image.shareHigh, hoffset, u16, u8, o, Image.u16, Image.u8]
    · simp [Image.slipGain, hoffset, u8, o, Image.u8]
    · rw [Image.transferFlag, getLsbD_zero_iff, hoffset]
    · simp [Image.rateUp, clampNat, hoffset, u16, u8, o, Image.u16, Image.u8]
    · simp [Image.rateDown, clampNat, hoffset, u16, u8, o, Image.u16, Image.u8]
    · simp [Image.switchThreshold, hoffset, u16, u8, o, Image.u16, Image.u8]
    · simp [Image.splitValue, hcode, u16, u8, Image.u16, Image.u8]
  · simp [Image.fallbackRamp, clampNat, u16, u8, Image.u16, Image.u8]
  · simp [Image.shortfallThreshold, u16, u8, Image.u16, Image.u8]
  · simp [Image.motoring, u16, u8, Image.u16, Image.u8]
  · simp [Image.generating, u16, u8, Image.u16, Image.u8]
  · simp [Image.motoring, u16, u8, Image.u16, Image.u8]
  · simp [Image.generating, u16, u8, Image.u16, Image.u8]
  · have hblock := slipBlock_of_mem hmem
    refine ⟨?_, ?_, fun k _ => ?_, ?_, ?_, ?_⟩
    · rw [Image.filterLength, hblock]
      rfl
    · rw [Image.thresholdSlope, hblock]
      rfl
    · rw [Image.coefficient, hblock, Image.s16_eq]
      rfl
    · simp [Image.baseThreshold, hblock, u16, u8, Image.u16, Image.u8]
    · simp [Image.spinMargin, hblock, u16, u8, Image.u16, Image.u8]
    · simp [Image.hysteresis, hblock, u16, u8, Image.u16, Image.u8]

/-! ## The end of INIT (R6, R114) -/

theorem State.openSlot_of_opened {s : State} {x : Axle} (h : (s.links.get x).loop = .opened) (position : Nat)
    (e : BitVec 32) : s.openSlot x position e = s.opened x position := by
  have hopened : ((s.opened x position).links.get x).loop = .opened := by
    rw [State.opened_get, (Link.openSlot_keeps _ _ _ _ _).1, h]
  exact State.takeLooped_of_not_near (.inl hopened) e

/-- The link at the end of INIT, its first slot opened. -/
theorem Link.acquire_openSlot {l : Link} (h : l.loop = .opened) (ok regen : Bool) (output : Int) :
    l.acquire.openSlot 0 (if ok then .standby else .safeHold) regen output =
      let frame := commandBytes (commandByte 0 ok false regen false) 0#16
      { l with
        state := .acquire, goodRun := 0, badRun := 0, position := 0, sentWord := if ok then 1#8 else 4#8, received := 0#8
        complete := true, slot := .waiting, sentFrame := frame, line := frame } := by
  rw [show 0 = (7 + 1) % 8 from rfl, Link.openSlot_eq_openedLink]
  cases ok <;> simp [openedLink, Link.acquire, h] <;> rfl

/-! ## The binding (R137) -/

theorem roleOfCode_eq (n : Nat) : roleOfCode n =
    if n = 1 then .ds else if n = 2 then .sc else if n = 3 then .bm else if n = 4 then .tm else if n = 5 then .st
    else .none := by
  rcases n with _ | _ | _ | _ | _ | _ | n <;> simp [roleOfCode]

/-- A source's entry carries a role other than NONE. -/
theorem ChassisConfig.entry_role {c : ChassisConfig} {n : Source} {r : Role} (h : r ≠ .none) :
    (c.entry n).role = r ↔ ∃ e ∈ c.table[n.val]?, e.role = r := by
  unfold ChassisConfig.entry
  rw [List.getD_eq_getElem?_getD]
  cases c.table[n.val]? with
  | none => simpa using fun hr : Role.none = r => h hr.symm
  | some e => simp

/-- The source bound to a role is the lowest-numbered one that carries it. -/
theorem ChassisConfig.boundTo_eq_some {c : ChassisConfig} {src : Source} {r : Role} (h : r ≠ .none) :
    c.boundTo r = some src ↔ (src ≠ c.own ∧ ∃ e ∈ c.table[src.val]?, e.role = r) ∧
      ∀ n < src, ¬(n ≠ c.own ∧ ∃ e ∈ c.table[n.val]?, e.role = r) := by
  have hcarries (n : Source) : (n != c.own && (c.entry n).role == r) = true ↔
      n ≠ c.own ∧ ∃ e ∈ c.table[n.val]?, e.role = r := by
    rw [Bool.and_eq_true, bne_iff_ne, beq_iff_eq, ChassisConfig.entry_role h]
  have hsources : ([0, 1, 2, 3, 4, 5, 6, 7] : List Source) = List.finRange 8 := by decide
  rw [ChassisConfig.boundTo, hsources, List.find?_eq_some_iff_getElem, hcarries]
  refine and_congr_right fun _ => ⟨?_, fun hn => ⟨src.val, by simp, by simp, fun j hj => ?_⟩⟩
  · rintro ⟨i, hi, hsrc, hbefore⟩ n hn hc
    have hni : n.val < i := by
      rw [← hsrc, List.getElem_finRange] at hn
      exact hn
    have := hbefore n.val hni
    simp only [List.getElem_finRange] at this
    exact Bool.eq_false_iff.1 (Bool.not_eq_true' _ ▸ this) ((hcarries n).2 hc)
  · have hlt : j < 8 := hj.trans src.isLt
    have := hn ⟨j, hlt⟩ hj
    rw [← hcarries, Bool.not_eq_true] at this
    rw [List.getElem_finRange, Bool.not_eq_true']
    exact this

theorem ChassisConfig.binding_has (c : ChassisConfig) (src : Source) (r : Role) : c.binding.has src r = true ↔
    r ≠ .none ∧ c.boundTo r = some src := by
  cases r <;> simp [Binding.has, ChassisConfig.binding]

/-- Settles O6: the device and the links at the end of INIT, the configuration by its bytes, the binding by the lowest
source that carries the role. -/
theorem imageCheckOfInitSetsDeviceAndLinks : Obligations.ImageCheckOfInitSetsDeviceAndLinks := by
  refine ⟨fun s hchecking hloop => ?_, fun m => ?_, fun s c src r hb => ?_⟩
  · intro ok device config word frame first
    have hfirst (x : Axle) (output : Int) :
        (s.leaveInit.links.get x).openSlot 0 device s.du.demand.regenPermitted output = first (s.links.get x) := by
      rw [s.leaveInit_get]
      exact Link.acquire_openSlot (hloop x) ok _ output
    have hopened (x : Axle) : (s.leaveInit.links.get x).loop = .opened := by
      rw [s.leaveInit_get]
      exact hloop x
    have hfront : s.leaveInit.openSlot .front 0 0#32 =
        { s.leaveInit with links := s.leaveInit.links.set .front (first s.links.front) } := by
      rw [State.openSlot_of_opened (hopened .front), State.opened]
      exact congrArg (fun l => { s.leaveInit with links := s.leaveInit.links.set .front l }) (hfirst .front _)
    have hrear : (s.leaveInit.openSlot .front 0 0#32).openSlot .rear 0 0#32 =
        { s.leaveInit with links := ⟨first s.links.front, first s.links.rear⟩ } := by
      rw [hfront]
      refine (State.openSlot_of_opened ?_ 0 0#32).trans ?_
      · exact hopened .rear
      exact congrArg (fun l => { s.leaveInit with links := ⟨first s.links.front, l⟩ }) (hfirst .rear _)
    refine congrArg Host.Outcome.next ((if_pos hchecking).trans (hrear.trans ?_))
    rfl
  · intro at_
    refine ⟨rfl, Nat.mod_eq_of_lt (by omega), rfl, fun n hn => ⟨m.sourceEntry n, ?_, rfl, rfl, roleOfCode_eq _⟩⟩
    interval_cases n <;> rfl
  · intro carries
    rw [State.bound, hb]
    dsimp only
    rw [ChassisConfig.binding_has]
    exact and_congr_right fun hr => ChassisConfig.boundTo_eq_some hr

end Sys2Proof.Machine
end

section
/-! The bytes of a frame's fields (R148): the two bytes of a 16-bit field as its quotient and its remainder by 256, and the
small fields of a byte as a sum. -/

namespace Sys2Proof.Machine

/-! ## Fields of two bytes -/

theorem loByte_ofInt (v : Int) : loByte (BitVec.ofInt 16 v) = BitVec.ofInt 8 v := by
  apply BitVec.eq_of_toNat_eq
  simp only [loByte, BitVec.extractLsb'_toNat, BitVec.toNat_ofInt, Nat.shiftRight_zero]
  omega

theorem hiByte_ofInt (v : Int) : hiByte (BitVec.ofInt 16 v) = BitVec.ofInt 8 (v / 256) := by
  apply BitVec.eq_of_toNat_eq
  simp only [hiByte, BitVec.extractLsb'_toNat, BitVec.toNat_ofInt, Nat.shiftRight_eq_div_pow]
  omega

theorem signedBytes_eq (v : Int) : signedBytes v = [BitVec.ofInt 8 (v / 256), BitVec.ofInt 8 v] := by
  rw [signedBytes, hiByte_ofInt, loByte_ofInt]

theorem unsignedBytes_eq_signed (n : Nat) : unsignedBytes n = signedBytes n := by
  rw [unsignedBytes, signedBytes, BitVec.ofInt_natCast]

theorem unsignedBytes_eq (n : Nat) : unsignedBytes n = [BitVec.ofNat 8 (n / 256), BitVec.ofNat 8 n] := by
  rw [unsignedBytes_eq_signed, signedBytes_eq, BitVec.ofInt_natCast]
  exact congrArg (fun b => [b, BitVec.ofNat 8 n]) (BitVec.ofInt_natCast 8 (n / 256))

/-- The bytes of a 16-bit word are those of its value. -/
theorem wordBytes_eq (w : BitVec 16) : [hiByte w, loByte w] = signedBytes w.toInt := by
  rw [signedBytes, BitVec.ofInt_toInt]

/-! ## Fields of one byte -/

theorem fieldBits_zero (x : Nat) : fieldBits x 0 = BitVec.ofNat 8 x := BitVec.shiftLeft_zero _

theorem flagBit_eq_fieldBits (b : Bool) (k : Nat) : flagBit b k = fieldBits b.toNat k := by
  cases b
  · exact (BitVec.zero_shiftLeft _).symm
  · rfl

theorem fieldBits_eq_ofNat (x k : Nat) : fieldBits x k = BitVec.ofNat 8 (2 ^ k * x) := by
  apply BitVec.eq_of_toNat_eq
  simp [fieldBits, Nat.shiftLeft_eq, Nat.mul_comm]

/-- A field above a number that leaves its bits free. -/
theorem fieldBits_or_ofNat {y k : Nat} (x : Nat) (h : y < 2 ^ k) :
    fieldBits x k ||| BitVec.ofNat 8 y = BitVec.ofNat 8 (2 ^ k * x + y) := by
  rw [fieldBits_eq_ofNat, ← BitVec.ofNat_or, Nat.two_pow_add_eq_or_of_lt h]

/-- A number that leaves a field's bits free, below that field. -/
theorem ofNat_or_fieldBits {y k : Nat} (x : Nat) (h : y < 2 ^ k) :
    BitVec.ofNat 8 y ||| fieldBits x k = BitVec.ofNat 8 (y + 2 ^ k * x) := by
  rw [BitVec.or_comm, fieldBits_or_ofNat x h, Nat.add_comm]

end Sys2Proof.Machine
end

section
/-! The services that act outside the Calibration Store (section 10.1): what each gives when it begins, and O39, O45, O46,
O47, O48, O49. -/

namespace Sys2Proof.Machine

/-! ## What service parameters name -/

theorem serviceAxle_toNat (b : Byte) :
    serviceAxle b.toNat = if b = 1#8 then some .front else if b = 2#8 then some .rear else none := by
  by_cases h1 : b = 1#8
  · subst h1; rfl
  by_cases h2 : b = 2#8
  · subst h2; rfl
  rw [if_neg h1, if_neg h2]
  unfold serviceAxle
  split
  · next h => exact absurd (BitVec.eq_of_toNat_eq h) h1
  · next h => exact absurd (BitVec.eq_of_toNat_eq h) h2
  · rfl

theorem serviceAxle_eq_some {b : Byte} {x : Axle} (h : (x = .front ∧ b = 1#8) ∨ (x = .rear ∧ b = 2#8)) :
    serviceAxle b.toNat = some x := by
  rcases h with ⟨rfl, rfl⟩ | ⟨rfl, rfl⟩ <;> rfl

theorem serviceAxle_eq_none {b : Byte} (h1 : b ≠ 1#8) (h2 : b ≠ 2#8) : serviceAxle b.toNat = none := by
  rw [serviceAxle_toNat, if_neg h1, if_neg h2]

theorem loopOfCode_toNat (b : Byte) : loopOfCode b.toNat =
    if b = 0#8 then some .opened else if b = 1#8 then some .nearTransparent else if b = 2#8 then some .nearOpaque
    else if b = 3#8 then some .far else none := by
  by_cases h0 : b = 0#8
  · subst h0; rfl
  by_cases h1 : b = 1#8
  · subst h1; rfl
  by_cases h2 : b = 2#8
  · subst h2; rfl
  by_cases h3 : b = 3#8
  · subst h3; rfl
  rw [if_neg h0, if_neg h1, if_neg h2, if_neg h3]
  unfold loopOfCode
  split
  · next h => exact absurd (BitVec.eq_of_toNat_eq h) h0
  · next h => exact absurd (BitVec.eq_of_toNat_eq h) h1
  · next h => exact absurd (BitVec.eq_of_toNat_eq h) h2
  · next h => exact absurd (BitVec.eq_of_toNat_eq h) h3
  · rfl

theorem serviceListed_iff (code : Byte) : serviceListed code = true ↔ code ∈ listedCodes := by
  have hcodes : listedCodes = Service.all.map Service.code := rfl
  rw [hcodes]
  simp [serviceListed]

/-- A loopback transition leaves a slot without a result exactly where one was awaited. -/
theorem SlotPhase.voided_eq (p : SlotPhase) : p.voided = if p = .waiting then .noResult else p := by
  cases p <;> rfl

theorem Link.transition_eq (l : Link) (kind : LoopState) : l.transition kind = { l with
    loop := kind, state := .acquire, goodRun := 0, badRun := 0, prevWord := none, ackVerified := false, complete := false,
    slot := if l.slot = .waiting then .noResult else l.slot } := by
  rw [← SlotPhase.voided_eq]
  rfl

/-- A list that READ ARBITER ENTRY does not name. -/
theorem Arbiter.listOf_eq_none (a : Arbiter) : ∀ {n : Nat}, 2 ≤ n → a.listOf n = none
  | _ + 2, _ => rfl

/-! ## What each service gives when it begins -/

section
variable {s : State} {r : Request}

/-- A loopback transition in SERVICE, where the parameters name an axle and a kind. -/
theorem exec_setLoopback_of_begins (h : Begins s 0x21#8 r) :
    exec .setLoopback s = .next (
      if s.osc.device = .service then
        match serviceAxle (r.params.getD 0 0#8).toNat, loopOfCode (r.params.getD 1 0#8).toNat with
        | some x, some k =>
          { afterResponse s r .done noPayload with links := s.links.set x ((s.links.get x).transition k) }
        | _, _ => afterResponse s r .badAddress noPayload
      else afterResponse s r .wrongState noPayload) :=
  congrArg Host.Outcome.next (State.beginService_of_begins .setLoopback _ h)

theorem exec_readLinkCounters_of_begins (h : Begins s 0x20#8 r) :
    exec .readLinkCounters s = .next (
      match serviceAxle (r.params.getD 0 0#8).toNat with
      | none => afterResponse s r .badAddress noPayload
      | some x =>
        { afterResponse s r .done (padTo 6 (s.links.get x).counterPayload) with
          links := s.links.set x { s.links.get x with nearErrors := 0, farErrors := 0 } }) :=
  congrArg Host.Outcome.next (State.beginService_of_begins .readLinkCounters _ h)

theorem exec_enterService_of_begins (h : Begins s 0x01#8 r) :
    exec .enterService s = .next (
      if s.osc.device = .standby ∨ s.osc.device = .safeHold then s.enterService.respond r .done []
      else afterResponse s r .wrongState noPayload) :=
  congrArg Host.Outcome.next (State.beginService_of_begins .enterService _ h)

theorem exec_leaveService_of_begins (h : Begins s 0x02#8 r) :
    exec .leaveService s = .next (
      if s.osc.device = .service then inExecution s .imageCheck else afterResponse s r .wrongState noPayload) :=
  congrArg Host.Outcome.next (State.beginService_of_begins .leaveService _ h)

theorem exec_leaveServiceCompletion_of_executing (ho : s.su.operation = some .imageCheck) (hr : s.su.queue.head? = some r) :
    exec .leaveServiceCompletion s = .next (s.leaveService r) := by
  simp only [exec, execLeaveServiceCompletion, ServiceUnit.executing_eq_some.2 ⟨ho, hr⟩]

theorem exec_readArbiterEntry_of_begins (h : Begins s 0x22#8 r) :
    exec .readArbiterEntry s = .next (
      match s.ia.listOf (r.params.getD 0 0#8).toNat with
      | none => afterResponse s r .badAddress noPayload
      | some (l, highest) =>
        if highest < (r.params.getD 1 0#8).toNat then afterResponse s r .badAddress noPayload
        else
          match l[(r.params.getD 1 0#8).toNat]? with
          | none => afterResponse s r .done noPayload
          | some e =>
            { afterResponse s r .done (padTo 6 (e.payload (holdLeft s.reading e.hold))) with reading := s.reading + 1 }) :=
  congrArg Host.Outcome.next (State.beginService_of_begins .readArbiterEntry _ h)

end

/-! ## Payloads -/

/-- The payload of an entry whose fields are in their ranges, each byte as a sum of its fields. -/
theorem Entry.payload_eq {e : Entry} {left : Nat} (he : e.level ≤ 7) (hleft : left < 512) :
    padTo 6 (e.payload left) =
      [BitVec.ofNat 8 (32 * e.source.val + 4 * e.level + e.axle.code), e.tag,
       BitVec.ofNat 8 (32 * e.kind.code + 16 * e.noTransfer.toNat + left / 256),
       BitVec.ofNat 8 (e.value / 256), BitVec.ofNat 8 e.value, BitVec.ofNat 8 left] := by
  have haxle : e.axle.code < 2 ^ 2 := by cases e.axle <;> decide
  have hflag : e.noTransfer.toNat < 2 := Bool.toNat_lt _
  have hleft' : left / 256 % 2 = left / 256 := Nat.mod_eq_of_lt (by omega)
  have hfirst : fieldBits e.source.val 5 ||| fieldBits e.level 2 ||| fieldBits e.axle.code 0 =
      BitVec.ofNat 8 (32 * e.source.val + 4 * e.level + e.axle.code) := by
    rw [BitVec.or_assoc, fieldBits_zero, fieldBits_or_ofNat _ haxle, fieldBits_or_ofNat _ (by omega), Nat.add_assoc]
    rfl
  have hthird : fieldBits e.kind.code 5 ||| flagBit e.noTransfer 4 ||| fieldBits (left / 256 % 2) 0 =
      BitVec.ofNat 8 (32 * e.kind.code + 16 * e.noTransfer.toNat + left / 256) := by
    rw [BitVec.or_assoc, hleft', flagBit_eq_fieldBits, fieldBits_zero, fieldBits_or_ofNat _ (by omega),
      fieldBits_or_ofNat _ (by omega), Nat.add_assoc]
    rfl
  rw [Entry.payload, hfirst, hthird, unsignedBytes_eq]
  rfl

/-- The hold time that a reading gives is from 1 ms to the entry's hold time. -/
theorem holdLeft_between {hold : Nat} (h : 1 ≤ hold) (reading : Nat) :
    1 ≤ holdLeft reading hold ∧ holdLeft reading hold ≤ hold := by
  unfold holdLeft
  omega

/-- The two bytes of a field of the image, as a payload carries them. -/
theorem Image.unsignedBytes_u16 (m : Image) (sector offset : Nat) :
    unsignedBytes (m.u16 sector offset) = [m.byte sector offset, m.byte sector (offset + 1)] := by
  rw [unsignedBytes_eq]
  have hhi := (m.byte sector offset).isLt
  have hlo := (m.byte sector (offset + 1)).isLt
  refine congrArg₂ (fun a b => [a, b]) (BitVec.eq_of_toNat_eq ?_) (BitVec.eq_of_toNat_eq ?_)
  all_goals
    simp only [BitVec.toNat_ofNat, Image.u16, Image.u8]
    omega

/-! ## The statements -/

/-- Settles O39: the axle and the kind that the parameters name, or BAD ADDRESS. -/
theorem loopbackAndCounterServices : Obligations.LoopbackAndCounterServices := by
  refine ⟨fun s r hb => ?_, fun s r hb => ⟨fun x hx => ?_, fun h1 h2 => ?_⟩⟩
  · intro kind
    have hrun := exec_setLoopback_of_begins hb
    have hkind : loopOfCode (r.params.getD 1 0#8).toNat = kind (r.params.getD 1 0#8) := loopOfCode_toNat _
    rw [hkind] at hrun
    refine ⟨fun x k hs hx hk => ?_, fun hs hbad => ?_, fun hs => hrun.trans (by rw [if_neg hs])⟩ <;> rw [if_pos hs] at hrun
    · intro l
      rw [serviceAxle_eq_some hx, hk] at hrun
      exact hrun.trans (by dsimp only; rw [Link.transition_eq])
    · refine hrun.trans (congrArg Host.Outcome.next ?_)
      rcases hbad with ⟨h1, h2⟩ | hk
      · rw [serviceAxle_eq_none h1 h2]
      · rw [hk]
        cases serviceAxle (r.params.getD 0 0#8).toNat <;> rfl
  · intro l loop
    have hloop : BitVec.ofNat 8 l.loop.code = loop := by
      unfold loop
      cases l.loop <;> rfl
    have hflag : flagBit l.ackVerified 0 = if l.ackVerified then 1#8 else 0#8 := rfl
    have hrun := exec_readLinkCounters_of_begins hb
    rw [serviceAxle_eq_some hx] at hrun
    refine hrun.trans ?_
    dsimp only
    rw [Link.counterPayload, hloop, hflag]
    rfl
  · have hrun := exec_readLinkCounters_of_begins hb
    rw [serviceAxle_eq_none h1 h2] at hrun
    exact hrun

/-- Settles O45: the room of the two queues decides. -/
theorem serviceRequestQueuesOrBusy : Obligations.ServiceRequestQueuesOrBusy := by
  intro s src code params h hlen reserved out
  have hrun : out = .next { s with su := s.su.arrive ⟨src, code, params⟩ } :=
    congrArg Host.Outcome.next ((State.admit_of_taken _ h (by simp)).trans (if_pos hlen))
  have hroom : s.su.room = 4 - s.su.responses.length - reserved := by
    unfold ServiceUnit.room
    cases hop : s.su.operation <;> simp [reserved, hop]
  unfold ServiceUnit.arrive at hrun
  refine ⟨fun hq => ?_, fun hq hr => ?_, fun hq hr => ?_⟩
  · rw [if_pos hq] at hrun
    exact hrun
  all_goals rw [if_neg (by rw [hq]; decide)] at hrun
  · rw [if_pos (by omega)] at hrun
    exact hrun
  · rw [if_neg (by omega)] at hrun
    exact hrun

/-- Settles O46: the device state decides; the clearing of the lists loses no entry. -/
theorem enterServiceClearsTorqueAndLists : Obligations.EnterServiceClearsTorqueAndLists := by
  intro s r hb
  have hrun := exec_enterService_of_begins hb
  refine ⟨fun hs => ?_, fun hs => ?_⟩
  · rw [if_pos hs] at hrun
    exact hrun
  · have hnot : ¬(s.osc.device = .standby ∨ s.osc.device = .safeHold) := by
      rcases hs with hs | hs <;> rw [hs] <;> decide
    exact hrun.trans (by rw [if_neg hnot])

/-- Settles O47: the branches of the beginning, and at the completion the two outcomes of the image check. -/
theorem leaveServiceAdoptsImage : Obligations.LeaveServiceAdoptsImage := by
  intro s r
  refine ⟨fun hb => ?_, fun ho hr => ?_⟩
  · have hrun := exec_leaveService_of_begins hb
    exact ⟨fun hs => hrun.trans (by rw [if_pos hs]), fun hs => hrun.trans (by rw [if_neg hs])⟩
  · intro ok config open_
    have hopen (l : Link) : l.openLoop = open_ l := by
      rw [Link.openLoop, Link.transition_eq]
    refine (exec_leaveServiceCompletion_of_executing ho hr).trans (congrArg Host.Outcome.next ?_)
    rcases s.leaveService_cases r with ⟨hv, h⟩ | ⟨hv, h⟩ <;> rw [h, hopen, hopen]
    · have hconfig : config = s.store.image.chassis := if_pos hv
      rw [hconfig, show ok = true from hv, State.adoptImage, hv]
      rfl
    · have hconfig : config = .default := if_neg (by rw [show ok = false from hv]; decide)
      rw [hconfig, show ok = false from hv, State.adoptImage, hv]
      rfl

/-- Settles O48: the three services complete at once. -/
theorem identityRestartAndUnknownService : Obligations.IdentityRestartAndUnknownService := by
  intro s r
  refine ⟨fun code hcode hb => ?_, fun m hm hb => ?_, fun hb => ?_⟩
  · have hnot : ¬serviceListed r.code = true := by rw [serviceListed_iff, hb.code_eq]; exact hcode
    simp only [exec, execUnknownService, State.dueRequest_of_begins hb, if_neg hnot]
    rfl
  · intro cause
    have hrun : exec .readIdentity s = .next (s.respond r .done
        (unsignedBytes s.calibration.version ++ [BitVec.ofNat 8 (resetCauseCode s.osc.cause)])) :=
      congrArg Host.Outcome.next (State.beginService_of_begins .readIdentity _ hb)
    have himage : s.calibration = m := by rw [State.calibration, hm, Option.getD_some]
    have hcause : BitVec.ofNat 8 (resetCauseCode s.osc.cause) = cause := by
      unfold cause
      cases s.osc.cause <;> rfl
    rw [hrun, himage, hcause, Image.version, Image.unsignedBytes_u16]
    rfl
  · exact congrArg Host.Outcome.next (State.beginService_of_begins .restart _ hb)

/-- Settles O49: the list, the index and the entry that the parameters name. -/
theorem arbiterEntryIsRead : Obligations.ArbiterEntryIsRead := by
  intro s r hb index named
  have hrun := exec_readArbiterEntry_of_begins hb
  refine ⟨fun list highest hnamed => ?_, fun h => by rw [s.ia.listOf_eq_none h] at hrun; exact hrun⟩
  have hlist : s.ia.listOf (r.params.getD 0 0#8).toNat = some (list, highest) := by
    rcases hnamed with ⟨hb0, rfl, rfl⟩ | ⟨hb0, rfl, rfl⟩ <;> rw [hb0] <;> rfl
  rw [hlist] at hrun
  dsimp only at hrun
  refine ⟨fun hi => hrun.trans (congrArg Host.Outcome.next (if_pos hi)),
    fun (hi : (r.params.getD 1 0#8).toNat ≤ highest) (hn : list[(r.params.getD 1 0#8).toNat]? = none) => ?_,
    fun e (hi : (r.params.getD 1 0#8).toNat ≤ highest) (he : list[(r.params.getD 1 0#8).toNat]? = some e) hranges => ?_⟩
  · rw [if_neg (not_lt.2 hi), hn] at hrun
    exact hrun
  · rw [if_neg (not_lt.2 hi), he] at hrun
    dsimp only at hrun
    obtain ⟨hlevel, -, -, hmin, hmax⟩ := hranges
    obtain ⟨hlow, hhigh⟩ := holdLeft_between (hold := e.hold) (by omega) s.reading
    refine ⟨holdLeft s.reading e.hold, hlow, hhigh, ?_⟩
    rw [Entry.payload_eq hlevel (show holdLeft s.reading e.hold < 512 by omega)] at hrun
    exact hrun

end Sys2Proof.Machine
end

section
/-! The port's own frames (sections 8.3 to 8.5): the bytes of the status frames, the candidates and the one offered, the ends
of a transmission, and O42, O43, O44. -/

namespace Sys2Proof.Machine

/-! ## Status frames -/

/-- The byte of STATUS A that holds the device state, the mode and two flags. -/
theorem statusA_byte (d : DeviceState) (m : Mode) (pending blend : Bool) :
    fieldBits d.code 0 ||| fieldBits m.code 3 ||| flagBit pending 5 ||| flagBit blend 6 =
      BitVec.ofNat 8 (d.code + 8 * m.code + 32 * pending.toNat + 64 * blend.toNat) := by
  have hd : d.code < 8 := by cases d <;> decide
  have hm : m.code < 4 := by cases m <;> decide
  have hp : pending.toNat < 2 := Bool.toNat_lt _
  rw [flagBit_eq_fieldBits, flagBit_eq_fieldBits, fieldBits_zero, ofNat_or_fieldBits _ (by omega),
    ofNat_or_fieldBits _ (by omega), ofNat_or_fieldBits _ (by omega)]
  rfl

/-- An axle's byte of STATUS B. -/
theorem SlipAxle.statusByte_eq (a : SlipAxle) : a.statusByte =
    BitVec.ofNat 8 ((a.override.getD a.auto).code + 4 * a.override.isSome.toNat + 8 * a.auto.code) := by
  have hs : a.displayed.code < 4 := by cases a.displayed <;> decide
  have ho : a.override.isSome.toNat < 2 := Bool.toNat_lt _
  rw [SlipAxle.statusByte, flagBit_eq_fieldBits, fieldBits_zero, ofNat_or_fieldBits _ (by omega),
    ofNat_or_fieldBits _ (by omega)]
  rfl

/-- A byte of two fields of four bits. -/
theorem nibbles_eq {y : Nat} (x : Nat) (h : y < 16) : fieldBits x 4 ||| fieldBits y 0 = BitVec.ofNat 8 (16 * x + y) := by
  rw [fieldBits_zero, fieldBits_or_ofNat _ h]
  rfl

theorem Arbiter.topLevel_eq (a : Arbiter) : a.topLevel = (a.stack.head?.map (·.level)).getD 8 := by
  unfold Arbiter.topLevel
  cases a.stack <;> rfl

theorem LinkState.code_lt (l : LinkState) : l.code < 16 := by cases l <;> decide

theorem InverterState.code_lt (v : InverterState) : v.code < 16 := by cases v <;> decide

/-- The bytes of a signed field as section 8.7.2 lays them out. -/
def fieldBytes (v : Int) : List Byte := [BitVec.ofInt 8 (v / 256), BitVec.ofInt 8 v]

theorem State.statusA_eq (s : State) : s.statusA =
    fieldBytes s.ae.record.output.front ++ fieldBytes s.ae.record.output.rear ++ fieldBytes s.ae.record.unserved ++
      [BitVec.ofNat 8 (s.osc.device.code + 8 * s.du.mode.code + 32 * s.du.pendingMode.isSome.toNat +
        64 * s.du.blend.active.toNat), 0#8] := by
  simp only [State.statusA, statusA_byte, signedBytes_eq, fieldBytes]

theorem State.statusB_eq {s : State} (h : s.ia.topLevel < 16) : s.statusB =
    fieldBytes s.ae.record.share ++
      [BitVec.ofNat 8 (16 * s.ia.stack.length + s.ia.topLevel), BitVec.ofNat 8 (16 * s.ia.waiting.length),
       BitVec.ofNat 8 (16 * s.links.front.state.code + s.links.rear.state.code),
       BitVec.ofNat 8 (16 * s.cu.front.inverter.code + s.cu.rear.inverter.code),
       s.se.axle.front.statusByte, s.se.axle.rear.statusByte] := by
  rw [State.statusB, nibbles_eq _ h, nibbles_eq _ (LinkState.code_lt _), nibbles_eq _ (InverterState.code_lt _),
    fieldBits_eq_ofNat, signedBytes_eq]
  rfl

theorem State.statusC_eq (s : State) : s.statusC =
    fieldBytes s.eu.visible.toInt ++ fieldBytes s.ae.record.accepted ++ fieldBytes s.ae.record.discharge ++
      fieldBytes s.ae.record.factor := by
  simp only [State.statusC, wordBytes_eq, unsignedBytes_eq_signed, signedBytes_eq, fieldBytes]

/-! ## Transmit slots -/

theorem Port.sending_iff (p : Port) (o : TxOrigin) : p.sending o = true ↔ p.transmission.map (·.origin) = some o := by
  unfold Port.sending
  cases p.transmission <;> simp

theorem TxSlot.put_eq (slot : TxSlot) (p : Port) (o : TxOrigin) (frame : List Byte) :
    slot.put (p.sending o) frame =
      if p.transmission.map (·.origin) = some o then ⟨slot.frame, some frame⟩ else ⟨some frame, none⟩ :=
  if_congr (p.sending_iff o) rfl rfl

theorem TxSlot.notSent_eq (slot : TxSlot) :
    slot.notSent = if slot.behind.isSome = true then ⟨slot.behind, none⟩ else slot := by
  unfold TxSlot.notSent
  cases h : slot.behind <;> rfl

/-- A frame that has been transmitted leaves its own slot or queue alone. -/
theorem Port.sentFrom_eq (p : Port) (o : TxOrigin) : p.sentFrom o = { p with
    slotA := if o = .slotA then p.slotA.sent else p.slotA
    slotB := if o = .slotB then p.slotB.sent else p.slotB
    slotC := if o = .slotC then p.slotC.sent else p.slotC
    answers := if o = .answer then p.answers.tail else p.answers } := by
  cases o <;> rfl

/-- A frame that has not been transmitted gives way to a newer one in its own slot alone. -/
theorem Port.notSentFrom_eq (p : Port) (o : TxOrigin) : p.notSentFrom o = { p with
    slotA := if o = .slotA ∧ p.slotA.behind.isSome = true then ⟨p.slotA.behind, none⟩ else p.slotA
    slotB := if o = .slotB ∧ p.slotB.behind.isSome = true then ⟨p.slotB.behind, none⟩ else p.slotB
    slotC := if o = .slotC ∧ p.slotC.behind.isSome = true then ⟨p.slotC.behind, none⟩ else p.slotC } := by
  cases o <;> simp [Port.notSentFrom, TxSlot.notSent_eq]

/-! ## The candidates -/

/-- What a holder of at most one frame contributes to the candidates. -/
theorem mem_offer_iff {α : Type} (o : Option α) (f : α → Transmission) (t : Transmission) :
    t ∈ (o.map f).toList ↔ ∃ a ∈ o, f a = t := by
  simp

theorem slotCandidate_iff (o : TxOrigin) (i : Nat) (frame : Option (List Byte)) (t : Transmission) :
    t ∈ (frame.map fun d => (⟨o, i, d⟩ : Transmission)).toList ↔ t.origin = o ∧ frame = some t.data ∧ t.ident = i := by
  rw [mem_offer_iff]
  constructor
  · rintro ⟨d, hd, rfl⟩
    exact ⟨rfl, hd, rfl⟩
  · rintro ⟨rfl, hd, rfl⟩
    exact ⟨_, hd, rfl⟩

theorem Answer.bytes_eq (a : Answer) : a.bytes = [a.tag, answerValue a.code, BitVec.ofNat 8 a.level, placeValue a.place] := by
  have hcode : a.code.code = answerValue a.code := by cases a.code <;> rfl
  have hplace : a.place.code = placeValue a.place := by cases a.place <;> rfl
  rw [Answer.bytes, hcode, hplace]

theorem Response.bytes_eq (r : Response) : r.bytes = r.code :: resultValue r.result :: r.payload := by
  have hcode : r.result.code = resultValue r.result := by cases r.result <;> rfl
  rw [Response.bytes, hcode]
  rfl

theorem answerCandidate_iff (c : ChassisConfig) (answer : Option Answer) (t : Transmission) :
    t ∈ (answer.map fun a => (⟨.answer, c.identifier 11 a.dest, a.bytes⟩ : Transmission)).toList ↔
      ∃ a ∈ answer, t.origin = .answer ∧ t.ident = c.base + 8 * 11 + a.dest.val ∧
        t.data = [a.tag, answerValue a.code, BitVec.ofNat 8 a.level, placeValue a.place] := by
  rw [mem_offer_iff]
  refine exists_congr fun a => and_congr_right fun _ => ?_
  rw [← Answer.bytes_eq]
  constructor
  · rintro rfl
    exact ⟨rfl, rfl, rfl⟩
  · rintro ⟨ho, hi, hd⟩
    obtain ⟨o, i, d⟩ := t
    subst ho hi hd
    rfl

theorem responseCandidate_iff (c : ChassisConfig) (response : Option Response) (t : Transmission) :
    t ∈ (response.map fun r => (⟨.response, c.identifier 12 r.dest, r.bytes⟩ : Transmission)).toList ↔
      ∃ r ∈ response, t.origin = .response ∧ t.ident = c.base + 8 * 12 + r.dest.val ∧
        t.data = r.code :: resultValue r.result :: r.payload := by
  rw [mem_offer_iff]
  refine exists_congr fun r => and_congr_right fun _ => ?_
  rw [← Response.bytes_eq]
  constructor
  · rintro rfl
    exact ⟨rfl, rfl, rfl⟩
  · rintro ⟨ho, hi, hd⟩
    obtain ⟨o, i, d⟩ := t
    subst ho hi hd
    rfl

theorem mem_candidates_iff (s : State) (c : ChassisConfig) (t : Transmission) :
    t ∈ s.cp.candidates c s.su.responses ↔ Candidate s c t := by
  simp only [Port.candidates, List.mem_append, slotCandidate_iff, answerCandidate_iff, responseCandidate_iff, or_assoc]
  exact Iff.rfl

/-- The lowest of a list is one of it, and no other is below it. -/
theorem lowestIdent_of_ne_nil : ∀ {l : List Transmission}, l ≠ [] →
    ∃ t ∈ l, lowestIdent l = some t ∧ ∀ v ∈ l, t.ident ≤ v.ident
  | [], h => absurd rfl h
  | [t], _ => ⟨t, by simp, rfl, by simp⟩
  | t :: u :: rest, _ => by
    obtain ⟨w, hw, hlow, hmin⟩ := lowestIdent_of_ne_nil (List.cons_ne_nil u rest)
    have hcons : lowestIdent (t :: u :: rest) = if w.ident < t.ident then some w else some t := by
      rw [lowestIdent, hlow]
    by_cases h : w.ident < t.ident
    · refine ⟨w, List.mem_cons_of_mem t hw, hcons.trans (if_pos h), fun v hv => ?_⟩
      rcases List.mem_cons.1 hv with rfl | hv
      · exact h.le
      · exact hmin v hv
    · refine ⟨t, List.mem_cons_self, hcons.trans (if_neg h), fun v hv => ?_⟩
      rcases List.mem_cons.1 hv with rfl | hv
      · exact le_refl _
      · exact (not_lt.1 h).trans (hmin v hv)

/-! ## The ends of a transmission -/

section
variable {s : State} {t : Transmission}

theorem exec_frameOffer_of_idle {c : ChassisConfig} (hc : s.chassis = some c) (ht : s.cp.transmission = none)
    (hp : s.portTakes = true) : exec .frameOffer s = .next { s with cp := { s.cp with
      transmission := lowestIdent (s.cp.candidates c s.su.responses) } } := by
  simp only [exec, execFrameOffer, hc, ht, hp, if_true]

theorem exec_frameOffer_of_busy (h : s.portTakes = false ∨ s.cp.transmission.isSome = true) :
    exec .frameOffer s = .next s := by
  simp only [exec, execFrameOffer]
  rcases h with h | h
  · rw [h]
    cases s.chassis <;> cases s.cp.transmission <;> rfl
  · obtain ⟨t, ht⟩ := Option.isSome_iff_exists.1 h
    rw [ht]
    cases s.chassis <;> rfl

theorem exec_transmissionSuccess_of_own (h : s.cp.transmission = some t) (ho : t.origin ≠ .response) :
    exec .transmissionSuccess s = .next { s with cp :=
      { s.cp with transmission := none, errorCount := s.cp.errorCount - 1 }.sentFrom t.origin } := by
  simp only [exec, execTransmissionSuccess, h, if_neg ho]

theorem exec_transmissionFailure_of_sending (h : s.cp.transmission = some t) :
    exec .transmissionFailure s =
      .next { s with cp := ({ s.cp with transmission := none }.notSentFrom t.origin).countFailure } := by
  simp only [exec, execTransmissionFailure, h]

theorem exec_arbitrationLoss_of_sending (h : s.cp.transmission = some t) :
    exec .arbitrationLoss s = .next { s with cp := { s.cp with transmission := none }.notSentFrom t.origin } := by
  simp only [exec, execArbitrationLoss, h]

end

/-! ## The statements -/

/-- Settles O42: the three frames by the layouts, each in its slot. -/
theorem statusFramesShowState : Obligations.StatusFramesShowState := by
  intro s htimer field r visible device mode link inverter level slip top a b c put _ htop _
  have hdevice : s.osc.device.code = device := by unfold device; cases s.osc.device <;> rfl
  have hmode : s.du.mode.code = mode := by unfold mode; cases s.du.mode <;> rfl
  have hlink (l : Link) : l.state.code = link l := by unfold link; cases l.state <;> rfl
  have hinverter (v : AxleCapability) : v.inverter.code = inverter v := by unfold inverter; cases v.inverter <;> rfl
  have hlevel (v : SlipState) : v.code = level v := by cases v <;> rfl
  have hslip (v : SlipAxle) : v.statusByte = slip v := by rw [SlipAxle.statusByte_eq, hlevel, hlevel]
  have htopLevel : s.ia.topLevel = top := s.ia.topLevel_eq
  have ha : s.statusA = a := by rw [State.statusA_eq, hdevice, hmode]; rfl
  have hb : s.statusB = b := by
    rw [State.statusB_eq (by omega), htopLevel, hlink, hlink, hinverter, hinverter, hslip, hslip]
    rfl
  have hc : s.statusC = c := s.statusC_eq
  refine (congrArg Host.Outcome.next (if_pos htimer)).trans ?_
  rw [TxSlot.put_eq, TxSlot.put_eq, TxSlot.put_eq, ha, hb, hc]

/-- Settles O43: the candidate offered is the lowest of the list of candidates, which is that of R145. -/
theorem lowestCandidateIsOffered : Obligations.LowestCandidateIsOffered := by
  intro s c hc hinit
  refine ⟨fun hon ht u hu => ?_, fun hon ht hnone => ?_, fun h => exec_frameOffer_of_busy ?_⟩
  · have hrun := exec_frameOffer_of_idle hc ht ((State.portTakes_iff s).2 ⟨hon, hinit⟩)
    obtain ⟨t, hmem, hlow, hmin⟩ := lowestIdent_of_ne_nil (List.ne_nil_of_mem ((mem_candidates_iff s c u).2 hu))
    refine ⟨t, (mem_candidates_iff s c t).1 hmem, fun v hv => hmin v ((mem_candidates_iff s c v).2 hv), ?_⟩
    rw [hrun, hlow]
  · have hrun := exec_frameOffer_of_idle hc ht ((State.portTakes_iff s).2 ⟨hon, hinit⟩)
    have hnil : s.cp.candidates c s.su.responses = [] :=
      List.eq_nil_iff_forall_not_mem.2 fun v hv => hnone v ((mem_candidates_iff s c v).1 hv)
    rw [hrun, hnil, lowestIdent, ← ht]
  · refine h.imp_left fun h => ?_
    rw [State.portTakes, h]
    rfl

/-- Settles O44: each end moves the frame of its origin alone. -/
theorem transmissionEndsBySuccessOrFailure : Obligations.TransmissionEndsBySuccessOrFailure := by
  refine ⟨fun s t h ho => ?_, fun s => ⟨fun t h => ?_, fun h => congrArg Host.Outcome.next (if_pos h)⟩⟩
  · intro moved
    rw [exec_transmissionSuccess_of_own h ho, Port.sentFrom_eq]
    rfl
  · intro kept unsent
    have hunsent : { s.cp with transmission := none }.notSentFrom t.origin = unsent := Port.notSentFrom_eq _ _
    have hcount : unsent.errorCount = s.cp.errorCount := rfl
    have hfail := exec_transmissionFailure_of_sending h
    rw [hunsent, Port.countFailure, hcount] at hfail
    refine ⟨fun hle => ?_, fun hgt => ?_, ?_⟩
    · rw [if_neg (not_lt.2 hle)] at hfail
      exact hfail
    · rw [if_pos hgt] at hfail
      exact hfail
    · rw [exec_arbitrationLoss_of_sending h, hunsent]

end Sys2Proof.Machine
end

section
/-! Received frames (sections 8.1, 8.2 and 8.7.1): the commands that the eight kinds spell, the verdict of the port's checks, and
O40. -/

namespace Sys2Proof.Machine

/-! ## The commands that frames spell -/

theorem interventionCommand_eq (src : Source) (action : Byte) (f : InterventionFields) :
    interventionCommand src action f =
      if action = 0#8 then .release src f else if action = 1#8 then .axleCap src f
      else if action = 2#8 then .totalCap src f else if action = 3#8 then .shareHold src f
      else if action = 4#8 then .regenCut src f else .refusedBadKind src action f := by
  by_cases h0 : action = 0#8
  · subst h0; rfl
  by_cases h1 : action = 1#8
  · subst h1; rfl
  by_cases h2 : action = 2#8
  · subst h2; rfl
  by_cases h3 : action = 3#8
  · subst h3; rfl
  by_cases h4 : action = 4#8
  · subst h4; rfl
  rw [if_neg h0, if_neg h1, if_neg h2, if_neg h3, if_neg h4]
  unfold interventionCommand
  split
  · next h => exact absurd (BitVec.eq_of_toNat_eq h) h0
  · next h => exact absurd (BitVec.eq_of_toNat_eq h) h1
  · next h => exact absurd (BitVec.eq_of_toNat_eq h) h2
  · next h => exact absurd (BitVec.eq_of_toNat_eq h) h3
  · next h => exact absurd (BitVec.eq_of_toNat_eq h) h4
  · rfl

theorem eventControlCommand_eq (src : Source) (op : Byte) (events : BitVec 16) :
    eventControlCommand src op events =
      if op = 1#8 then .setMask src events else if op = 2#8 then .acknowledge src events
      else .eventControlOtherOperation src op events := by
  by_cases h1 : op = 1#8
  · subst h1; rfl
  by_cases h2 : op = 2#8
  · subst h2; rfl
  rw [if_neg h1, if_neg h2]
  unfold eventControlCommand
  split
  · next h => exact absurd (BitVec.eq_of_toNat_eq h) h1
  · next h => exact absurd (BitVec.eq_of_toNat_eq h) h2
  · rfl

/-- The commands that a frame of a kind from a source can spell. A DEMAND may come together with an expiry, which its bytes do
not say. -/
inductive Spelled (src : Source) : Nat → Instr → Prop
  | demand (torque : BitVec 16) (mode flags : Byte) (counter : DemandCounter) :
      Spelled src 0 (.demand src torque mode flags counter)
  | reference (front rear : BitVec 16) : Spelled src 1 (.reference src front rear)
  | batteryLimit (discharge charge : BitVec 16) : Spelled src 2 (.batteryLimit src discharge charge)
  | load (tongue : BitVec 16) (flags : Byte) : Spelled src 3 (.load src tongue flags)
  | intervention (action : Byte) (f : InterventionFields) : Spelled src 4 (interventionCommand src action f)
  | slipOverride (axleCode code : Byte) : Spelled src 5 (.slipOverride src axleCode code)
  | eventControl (op : Byte) (events : BitVec 16) : Spelled src 6 (eventControlCommand src op events)
  | serviceRequest (code : Byte) (params : List Byte) : Spelled src 7 (.serviceRequest src code params)

theorem spelled_of_decoded {kind : Nat} {src : Source} {data : List Byte} {c : Instr}
    (h : decodeFrame kind src data = some c) : Spelled src kind c := by
  unfold decodeFrame at h
  split at h
  case h_9 => exact absurd h (by simp)
  all_goals
    obtain rfl := Option.some.inj h
    constructor

/-- The row of the kind that a command comes from. -/
theorem Spelled.row {src : Source} {kind : Nat} {c : Instr} (h : Spelled src kind c) :
    ∃ row, kindTable[kind]? = some row ∧ row.1 = kindRoles kind := by
  cases h <;> exact ⟨_, rfl, rfl⟩

/-- The port checks the source of a frame's command, and hands it to an owner. -/
theorem Spelled.owner {src : Source} {kind : Nat} {c : Instr} (h : Spelled src kind c) (s : State) :
    ∃ owner, exec c s = .next (s.checkFrame src (kindRoles kind) owner) := by
  cases h with
  | intervention action f =>
    unfold interventionCommand
    split <;> exact ⟨_, rfl⟩
  | eventControl op events =>
    unfold eventControlCommand
    split <;> exact ⟨_, rfl⟩
  | _ => exact ⟨_, rfl⟩

/-- Delivering a frame's command is executing it. -/
theorem Spelled.deliver_eq {src : Source} {kind : Nat} {c : Instr} (h : Spelled src kind c) (s : State) :
    deliver c s = exec c s := by
  cases h with
  | intervention action f =>
    unfold interventionCommand
    split <;> rfl
  | eventControl op events =>
    unfold eventControlCommand
    split <;> rfl
  | _ => rfl

/-! ## Lengths -/

/-- Bytes of a known number are those in its places. -/
theorem eq_map_getD_of_length {n : Nat} {l : List Byte} (h : l.length = n) : l = (List.range n).map fun k => l.getD k 0#8 := by
  subst h
  refine List.ext_getElem (by simp) fun k hk _ => ?_
  simp [List.getElem?_eq_getElem hk]

theorem kindTable_lt {kind : Nat} {row : List Role × Nat} (h : kindTable[kind]? = some row) : kind < 8 :=
  (List.getElem?_eq_some_iff.1 h).1

theorem kindTable_roles {kind : Nat} {row : List Role × Nat} (h : kindTable[kind]? = some row) : row.1 = kindRoles kind := by
  have hlt := kindTable_lt h
  interval_cases kind <;> exact (Option.some.inj h) ▸ rfl

/-- Bytes of the kind's length spell a command. -/
theorem decodeFrame_of_length {kind : Nat} {row : List Role × Nat} (h : kindTable[kind]? = some row) (src : Source)
    {data : List Byte} (hlen : data.length = row.2) : ∃ c, decodeFrame kind src data = some c := by
  have hlt := kindTable_lt h
  rw [eq_map_getD_of_length hlen]
  interval_cases kind <;> exact (Option.some.inj h) ▸ ⟨_, rfl⟩

/-- Bytes that spell a command have the kind's length. -/
theorem length_of_decoded {kind : Nat} {src : Source} {data : List Byte} {c : Instr}
    (h : decodeFrame kind src data = some c) : ∃ row, kindTable[kind]? = some row ∧ data.length = row.2 := by
  unfold decodeFrame at h
  split at h
  case h_9 => exact absurd h (by simp)
  all_goals exact ⟨_, rfl, rfl⟩

theorem decodeFrame_eq_none {kind : Nat} (src : Source) {data : List Byte}
    (h : ∀ row ∈ kindTable[kind]?, data.length ≠ row.2) : decodeFrame kind src data = none := by
  cases hd : decodeFrame kind src data with
  | none => rfl
  | some c =>
    obtain ⟨row, hrow, hlen⟩ := length_of_decoded hd
    exact absurd hlen (h row hrow)

/-! ## The verdict -/

/-- A frame is taken into the checks (R136). -/
def Seen (s : State) (c : ChassisConfig) (f : CanFrame) : Prop :=
  s.cp.state = .on ∧ s.osc.device ≠ .init ∧ f.extended = false ∧ f.remote = false ∧
    c.base ≤ f.ident ∧ f.ident ≤ c.base + 127

section
variable {s : State} {c : ChassisConfig} {f : CanFrame}

theorem State.portTakes_eq_false (h : s.osc.device = .init ∨ s.cp.state = .silent) : s.portTakes = false := by
  unfold State.portTakes
  rcases h with h | h <;> rw [h]
  · exact Bool.and_false _
  · rfl

/-- The tests of R136 as the model makes them. -/
theorem not_seen_iff : (!s.portTakes || f.extended || f.remote || decide (f.ident < c.base) ||
    decide (c.base + 127 < f.ident)) = true ↔ ¬Seen s c f := by
  have hport : s.portTakes = false ↔ ¬(s.cp.state = .on ∧ s.osc.device ≠ .init) := by
    rw [← State.portTakes_iff, Bool.not_eq_true]
  simp only [Bool.or_eq_true, Bool.not_eq_true', decide_eq_true_iff, hport, Seen, ← and_assoc, not_and_or, not_le,
    Bool.not_eq_false]

theorem State.verdict_of_not_seen (hc : s.chassis = some c) (h : ¬Seen s c f) : s.verdict f = .ignored := by
  rw [State.verdict, hc]
  exact if_pos (not_seen_iff.2 h)

theorem State.verdict_of_seen (hc : s.chassis = some c) (h : Seen s c f) : s.verdict f =
    if (kindRoles ((f.ident - c.base) / 8)).any (s.bound (sourceOf (f.ident - c.base))) then
      match decodeFrame ((f.ident - c.base) / 8) (sourceOf (f.ident - c.base)) (f.data.take (min f.dlc 8)) with
      | some i => .handed i
      | none => .rejected
    else .rejected := by
  rw [State.verdict, hc]
  exact if_neg (mt not_seen_iff.1 (not_not.2 h))

theorem State.verdict_of_port_closed (h : s.portTakes = false) (f : CanFrame) : s.verdict f = .ignored := by
  unfold State.verdict
  rw [h]
  cases s.chassis <;> rfl

theorem exec_frameRejected_of_ignored (h : s.verdict f = .ignored) : exec (.frameRejected f) s = .next s := by
  simp only [exec, execFrameRejected, h]

theorem exec_frameRejected_of_rejected (h : s.verdict f = .rejected) :
    exec (.frameRejected f) s = .next (latched s 15) := by
  simp only [exec, execFrameRejected, h]
  exact congrArg Host.Outcome.next (State.raise_eq_latched _ _)

theorem exec_frameRejected_of_handed {i : Instr} (h : s.verdict f = .handed i) :
    exec (.frameRejected f) s = deliver i s := by
  simp only [exec, execFrameRejected, h]

/-- A data frame that the bus can carry has the bytes of its data length code. -/
theorem CanFrame.data_of_wellFormed (h : f.wellFormed = true) (hr : f.remote = false) :
    f.data.length = min f.dlc 8 := by
  unfold CanFrame.wellFormed at h
  rw [hr, Bool.and_eq_true, decide_eq_true_iff] at h
  exact h.2

end

/-! ## The statement -/

/-- The command of a frame meets the checks of R136 and R138 before its owner. -/
theorem Spelled.checked {src : Source} {kind : Nat} {c : Instr} (h : Spelled src kind c) (s : State) :
    (s.cp.state = .silent ∨ s.osc.device = .init → exec c s = .next s) ∧
    (s.cp.state = .on → s.osc.device ≠ .init →
      (∀ row ∈ kindTable[kind]?, ∀ r ∈ row.1, s.bound src r = false) → exec c s = .next (latched s 15)) := by
  obtain ⟨owner, howner⟩ := h.owner s
  obtain ⟨row, hrow, hroles⟩ := h.row
  refine ⟨fun hclosed => ?_, fun hon hinit hunbound => ?_⟩
  · rw [howner, State.checkFrame, State.portTakes_eq_false hclosed.symm]
    rfl
  · have hany : (kindRoles kind).any (s.bound src) = false := by
      rw [← hroles]
      simpa using hunbound row hrow
    rw [howner, State.checkFrame, if_pos ((State.portTakes_iff s).2 ⟨hon, hinit⟩), hany]
    exact congrArg Host.Outcome.next (State.raise_eq_latched _ _)

/-- Settles O40: the layouts, the lengths, the commands of a row, and the three verdicts of the checks. -/
theorem portChecksRejectFrames : Obligations.PortChecksRejectFrames := by
  refine ⟨fun src b0 b1 b2 b3 b4 b5 b6 b7 => ⟨rfl, rfl, rfl, rfl, congrArg some (interventionCommand_eq _ _ _), rfl,
    congrArg some (eventControlCommand_eq _ _ _), rfl⟩, fun kind src data h => decodeFrame_eq_none src h, fun s => ⟨?_, ?_, ?_⟩⟩
  · exact fun h f => exec_frameRejected_of_ignored (State.verdict_of_port_closed (State.portTakes_eq_false h) f)
  · intro kind src data c h
    refine Spelled.checked ?_ s
    rcases h with h | ⟨rfl, t, m, f, k, rfl⟩
    · exact spelled_of_decoded h
    · exact .demand t m f ⟨k, true⟩
  · intro f c hwell hc kind src seen passes
    have hsrc : sourceOf (f.ident - c.base) = src := Fin.ext (Nat.mod_mod _ _).symm
    refine ⟨fun h => exec_frameRejected_of_ignored (State.verdict_of_not_seen hc h), fun h hnot => ?_, fun h hpass => ?_⟩ 
    all_goals
      have hverdict := State.verdict_of_seen hc h
      obtain ⟨-, -, -, hremote, -, -⟩ := h
      have hlen := CanFrame.data_of_wellFormed hwell hremote
      rw [← hlen, List.take_length, hsrc] at hverdict
    · refine exec_frameRejected_of_rejected (hverdict.trans ?_)
      split
      · next hany =>
        obtain ⟨r, hr, hbound⟩ := List.any_eq_true.1 hany
        rw [decodeFrame_eq_none]
        intro row hrow hrowlen
        exact hnot ⟨row, hrow, ⟨r, (kindTable_roles hrow).symm ▸ hr, hbound⟩, hlen.symm.trans hrowlen⟩
      · rfl
    · obtain ⟨row, hrow, ⟨r, hr, hbound⟩, hdlc⟩ := hpass
      obtain ⟨i, hi⟩ := decodeFrame_of_length hrow src (hlen.trans hdlc)
      refine ⟨i, hi, ?_⟩
      have hany : (kindRoles kind).any (s.bound src) = true := List.any_eq_true.2 ⟨r, kindTable_roles hrow ▸ hr, hbound⟩
      have hhanded : s.verdict f = .handed i := by
        refine hverdict.trans ((if_pos hany).trans ?_)
        rw [show decodeFrame ((f.ident - c.base) / 8) src f.data = some i from hi]
      rw [exec_frameRejected_of_handed hhanded, (spelled_of_decoded hi).deliver_eq]

end Sys2Proof.Machine
end
